-- ==== Sys2Proof/Word.lean ====
section
/-! DEFINITION. The bit vectors of the block: a 40-bit command word, and the 32-bit operand, position, velocity and
result words (30_encoding.md R51, 10_state.md R18). Everything the spec reads as a number is read out of them elsewhere. -/

namespace Sys2Proof

/-- A 32-bit word: the operand field `OPD` (R51) and the registers `VEL`, `POS` and `RESULT` (R18). -/
abbrev Word := BitVec 32

/-- The one command format: 40 bits, `OPC` in bits 39:32 and `OPD` in bits 31:0 (R51). -/
abbrev CommandWord := BitVec 40

/-- A logical level of an output port, `true` for 1 and `false` for 0; `1 − l` of the spec is `!l` (R5, R32, R33). -/
abbrev Level := Bool

end Sys2Proof
end

