-- ==== Sys2Proof/Config.lean ====
section
/-! DEFINITION. The configuration record `CFG` of 00_scope.md R7, the widths the spec fixes, and the configuration the
state before the first `CONSTRUCT` holds (notes/assumptions/4.md). Whether a record is legal (R8) is
`Machine.legalConfig`, in Machine/Operands.lean. -/

namespace Sys2Proof

/-- `STRATEGY` of R7: `a` is the phase accumulator, `b` the dither counter (R3). -/
inductive Strategy where
  | a
  | b
  deriving DecidableEq, Repr

/-- The record `CFG`, one field per parameter of R7 that is not fixed. A record need not be legal: `CONSTRUCT` refuses
an illegal one (R113). Integers are natural numbers here (notes/assumptions/6.md). -/
structure Config where
  /-- `STRATEGY`: the scheduler strategy. -/
  strategy : Strategy
  /-- `tickRateHz`: ticks per second, legal from 1. -/
  tickRateHz : ℕ
  /-- `spd`: `stepsPerDistance`, a rational, legal when positive. -/
  spd : ℚ
  /-- `D_POL`: the level of the direction output that stands for Positive. -/
  dPol : Level
  /-- `U`: seconds per velocity time unit, legal from 1. -/
  u : ℕ
  /-- `K_B`: strategy B's minimum ticks between pulses, legal from 4 to 8. -/
  kB : ℕ
  /-- `V_STOP`: the stop threshold `minVelocity`, a rational, legal when positive. -/
  vStop : ℚ
  /-- `EPS`: the dither epsilon, a rational, legal when `0 < EPS ≤ 1/8` and `1/EPS ≤ 2^WT − 2`. -/
  eps : ℚ
  /-- `N`: the width in bits of `INC` and `ACC`, legal from 2. -/
  n : ℕ
  /-- `WT`: the width in bits of strategy B's interval and counter registers, legal from 8. -/
  wt : ℕ
  /-- `EN_ACTIVE`: the level of the enable output that means "enabled". -/
  enActive : Level
  /-- `AW`: the platform's atomic word size in bits, legal from 1; no rule of the model reads it (R46). -/
  aw : ℕ
  deriving DecidableEq, Repr

namespace Config

/-- `K_A`, strategy A's minimum ticks between pulses, fixed at 2 (R7). -/
def kA : ℕ := 2

/-- `WP`, the width of `POS`, fixed at 32 (R7). -/
def wp : ℕ := 32

/-- `WV`, the width of an `FX` operand, fixed at 32 (R7, R12). -/
def wv : ℕ := 32

/-- `FV`, the fraction bits of an `FX` operand, fixed at 16 (R7, R12). -/
def fv : ℕ := 16

/-- The defaults of R7, where R7 leaves a parameter OPEN the value of the test vectors, and where there is neither
(`STRATEGY`, `AW`) a value this model chose. DESIGN CHOICE, unsafe: notes/assumptions/4.md. It is only what `CFG` and its
side input hold before the first `CONSTRUCT`, which nothing reads while `BUILT = 0` but `CONSTRUCT` presented with no
record of its own. -/
def powerOn : Config where
  strategy := .a
  tickRateHz := 20000
  spd := 80
  dPol := true
  u := 1
  kB := 4
  vStop := 1 / 16
  eps := 1 / 256
  n := 32
  wt := 32
  enActive := false
  aw := 32

end Config

end Sys2Proof
end

