-- ==== Sys2Proof/Syntax.lean ====
section
/-! DEFINITION. The commands of the block as syntax: the ten rows of spec/opcode_table.json, the raw command a word
splits into, a command as an agent presents it, the reasons a command is refused for, and the assembler's lines. -/

namespace Sys2Proof

/-- The two agents that step the block (R6). -/
inductive Agent where
  /-- Every non-interrupt-context caller. -/
  | host
  /-- The periodic tick source; it issues only `TICK`. -/
  | ticksrc
  deriving DecidableEq, Repr

/-- One constructor per row of spec/opcode_table.json. V, S and D operands are the whole 32-bit `OPD`; a Z-format command
has none (R52). `CONSTRUCT`'s configuration is a side input, not part of the word (R124). -/
inductive Instr where
  /-- `CONSTRUCT`, `OPC = 0x01`, R124. -/
  | construct
  /-- `ENABLE`, `OPC = 0x02`, R107. -/
  | enable
  /-- `DISABLE`, `OPC = 0x03`, R108. -/
  | disable
  /-- `SETVEL`, `OPC = 0x10`, format V, R77. -/
  | setvel (opd : Word)
  /-- `GETVEL`, `OPC = 0x11`, R106. -/
  | getvel
  /-- `SETPOS`, `OPC = 0x20`, format S, R100. -/
  | setpos (opd : Word)
  /-- `SETPOSD`, `OPC = 0x21`, format D, R101. -/
  | setposd (opd : Word)
  /-- `GETPOS`, `OPC = 0x22`, R102. -/
  | getpos
  /-- `GETPOSD`, `OPC = 0x23`, R103. -/
  | getposd
  /-- `TICK`, `OPC = 0x30`, R81. -/
  | tick
  deriving DecidableEq, Repr

/-- A command word taken apart, before any check (R51). -/
structure Command where
  /-- `OPC`, bits 39:32. -/
  opc : BitVec 8
  /-- `OPD`, bits 31:0. -/
  opd : Word
  deriving DecidableEq, Repr

/-- A command as an agent presents it to the block: who issues it, its word, and the configuration record that stands on
the side input beside it, if the agent puts a new one there (R51, R124; notes/assumptions/3.md). -/
structure Presented where
  agent : Agent
  word : CommandWord
  cfg : Option Config
  deriving DecidableEq, Repr

/-- Why a command is refused, in the order of the table of 60_exceptions.md R112. -/
inductive RefusalReason where
  /-- `OPC` is not in the opcode map (R54, R55). -/
  | reservedOpcode
  /-- A Z-format command with `OPD ≠ 0` (R54). -/
  | nonZeroOperand
  /-- `TICK` from `HOST`, or any other command from `TICKSRC` (R54). -/
  | wrongContext
  /-- Any command but `CONSTRUCT` while `BUILT = 0` (R54). -/
  | notConstructed
  /-- `CONSTRUCT` with a configuration that breaks R8 (R113). -/
  | illFormedConfig
  /-- A rule reads `DIR = 3`, which no rule writes (R20, R112). -/
  | reservedDirection
  deriving DecidableEq, Repr

/-- An operand of format V or D as the assembler writes it (R57). -/
inductive AsmOperand where
  /-- A decimal number. -/
  | decimal (x : ℚ)
  /-- A raw code `#0x…`. -/
  | raw (code : Word)
  deriving DecidableEq, Repr

/-- A line of the assembler: the ten commands (R57) and the three pseudo-instructions (R58). -/
inductive AsmLine where
  | construct
  | enable
  | disable
  | setvel (v : AsmOperand)
  | getvel
  | setpos (n : ℤ)
  | setposd (d : AsmOperand)
  | getpos
  | getposd
  | tick
  /-- `STOP`, which stands for `SETVEL 0`. -/
  | stop
  /-- `ZERO`, which stands for `SETPOS 0`. -/
  | zero
  /-- `TICKS k`, which stands for `k` consecutive `TICK` commands. -/
  | ticks (k : ℕ)
  deriving DecidableEq, Repr

end Sys2Proof
end

