-- ==== Sys2Proof/Machine/State.lean ====
section
/-! DEFINITION. The state of the block (10_state.md R16, R18), the ways a step can stop (none that the spec knows), and
the state before the first `CONSTRUCT`. -/

namespace Sys2Proof.Machine

/-- The direction register `DIR`, two bits (R18, R20). -/
inductive Dir where
  /-- Code 0, Stopped. -/
  | stopped
  /-- Code 1, Positive. -/
  | positive
  /-- Code 2, Negative. -/
  | negative
  /-- Code 3, reserved: no rule writes it, and a rule that reads it refuses the command (R18, R20, R112). -/
  | reserved
  deriving DecidableEq, Repr

/-- The output ports (R36). -/
inductive Port where
  | stepOut
  | dirOut
  | enOut
  deriving DecidableEq, Repr

/-- The ways the machine could stop with a fault: there are none. The block raises no exception and reports no error
(R111), and it "has no `fault` and no `stuck` behaviour" (93_implementation_defined.md). -/
inductive Fault where
  deriving DecidableEq, Repr

/-- The ways a step could have no meaning. A command the block refuses is not one of them: the spec gives a refusal an
effect, `REFUSED ← 1` (R112), so it is a next state. -/
inductive Refusal where
  /-- Raised by `exec` alone, for an instruction that has no meaning yet; none is left. Safe: the run stops. -/
  | notModelled (mnemonic : String)
  deriving DecidableEq, Repr

/-- The whole state: the elements S0 to S16 of R18 under their own names, `CFG` and its cached limits, `OUTLOG`, and, last,
what stands outside the block and is presented to it. The registers whose width is `N` or `WT` are natural numbers, and
`Safety.lean` states their ranges (notes/assumptions/5.md). -/
structure State where
  /-- `CFG`, the configuration in force (R7, R16). -/
  cfg : Config
  /-- `MAXV`, the maximum velocity, cached by `CONSTRUCT` (R60, R124). -/
  maxV : ℚ
  /-- `MAXCODE`, the largest velocity code, cached by `CONSTRUCT` (R61, R124). -/
  maxCode : ℤ
  /-- S0 `BUILT`. -/
  built : Bool
  /-- S1 `ENABLED` (R19). -/
  enabled : Bool
  /-- S2 `DIR` (R20). -/
  dir : Dir
  /-- S3 `VEL`, an `FX` code (R22). -/
  vel : Word
  /-- S4 `INC`, strategy A, `N` bits (R23). -/
  inc : ℕ
  /-- S5 `ACC`, strategy A, `N` bits (R26). -/
  acc : ℕ
  /-- S6 `TPS`, strategy B, `WT` bits (R24). -/
  tps : ℕ
  /-- S7 `DTOTAL`, strategy B, `WT` bits (R25). -/
  dtotal : ℕ
  /-- S8 `DLONG`, strategy B, `WT` bits (R25). -/
  dlong : ℕ
  /-- S9 `DCOUNT`, strategy B, `WT` bits (R27). -/
  dcount : ℕ
  /-- S10 `TCNT`, strategy B, `WT` bits (R28). -/
  tcnt : ℕ
  /-- S11 `POS`, a signed step count (R29). -/
  pos : Word
  /-- S12 `PULSE`, the level of `STEP_OUT` (R31). -/
  pulse : Level
  /-- S13 `DIRLVL`, the level of `DIR_OUT` (R32). -/
  dirlvl : Level
  /-- S14 `ENLVL`, the level of `EN_OUT` (R33). -/
  enlvl : Level
  /-- S15 `RESULT` (R34). -/
  result : Word
  /-- `OUTLOG`, the port events in the order they were produced, oldest first (R36). -/
  outlog : List (Port × Level)
  /-- S16 `REFUSED`, sticky (R112). -/
  refused : Bool
  /-- The model's own: the reason of the latest refusal, which R54 and R118 say a refused command reports and R18 gives
  no register for (notes/assumptions/2.md). -/
  lastRefusal : Option RefusalReason
  /-- The model's own: the configuration record on `CONSTRUCT`'s side input (R124; notes/assumptions/3.md). -/
  cfgIn : Config
  /-- The model's own: the commands the two agents have still to present, in the one total order the run takes them in
  (R6, R45; notes/assumptions/1.md). -/
  pending : List Presented
  deriving DecidableEq, Repr

/-- The block before the first `CONSTRUCT`: `BUILT = 0` (R18), `REFUSED = 0` and an empty `OUTLOG` (95_test_vectors.md
L3). The spec gives no other value there; DESIGN CHOICE, unsafe, notes/assumptions/4.md: every other register holds what
`CONSTRUCT` would leave in it under `Config.powerOn`. Nothing is presented. -/
def State.reset : State where
  cfg := Config.powerOn
  maxV := 125
  maxCode := 8192000
  built := false
  enabled := false
  dir := .stopped
  vel := 0
  inc := 0
  acc := 0
  tps := 4294967295
  dtotal := 1
  dlong := 0
  dcount := 0
  tcnt := 0
  pos := 0
  pulse := false
  dirlvl := false
  enlvl := true
  result := 0
  outlog := []
  refused := false
  lastRefusal := none
  cfgIn := Config.powerOn
  pending := []

end Sys2Proof.Machine
end

