-- ==== Sys2Proof/Machine/Ops.lean ====
section
/-! DEFINITION. The number functions of 00_scope.md R10, and the named operations over the registers that the commands
share: writing a port, lowering the pulse, firing a step, writing a TimingParameter, clearing the sub-step state, and
refusing a command, which stands in this block for taking an exception (60_exceptions.md R112, R115). -/

namespace Sys2Proof.Machine

/-! ## Numbers (R10) -/

/-- `wrap_w(x) = x mod 2^w`. -/
def wrap (w : ℕ) (x : ℤ) : ℤ := x % 2 ^ w

/-- `swrap_w(x) = ((x + 2^(w−1)) mod 2^w) − 2^(w−1)`. -/
def swrap (w : ℕ) (x : ℤ) : ℤ := (x + 2 ^ (w - 1)) % 2 ^ w - 2 ^ (w - 1)

/-- `sat_w(x) = min(max(x, −2^(w−1)), 2^(w−1) − 1)`. -/
def sat (w : ℕ) (x : ℤ) : ℤ := min (max x (-(2 ^ (w - 1)))) (2 ^ (w - 1) - 1)

/-- `round(q) = floor(q + 1/2)`, used on non-negative values. -/
def roundHalfUp (q : ℚ) : ℤ := ⌊q + 1 / 2⌋

/-- `roundHA(q) = sign(q) · floor(|q| + 1/2)`, half away from zero. -/
def roundHA (q : ℚ) : ℤ := if q < 0 then -⌊-q + 1 / 2⌋ else ⌊q + 1 / 2⌋

/-- `clamp(x, lo, hi) = min(max(x, lo), hi)`. -/
def clamp (x lo hi : ℤ) : ℤ := min (max x lo) hi

/-- The 32-bit two's-complement word of an integer (R9, R12). -/
def code32 (x : ℤ) : Word := BitVec.ofInt 32 x

/-! ## Registers -/

/-- The code of `DIR` in its two bits (R20). -/
def Dir.code : Dir → BitVec 2
  | .stopped => 0
  | .positive => 1
  | .negative => 2
  | .reserved => 3

/-- `refuse(reason)`: the command has no meaning; nothing but `REFUSED` changes, and nothing clears it (R11, R112,
R114). The reason is recorded beside it (notes/assumptions/2.md). -/
def refuse (reason : RefusalReason) (s : State) : State :=
  { s with refused := true, lastRefusal := some reason }

/-- `Out(PORT, level)`: the event joins the output trace (R11, R36). The level itself is the register `PULSE`, `DIRLVL` or
`ENLVL` that the caller writes beside it (R31, R32, R33; notes/assumptions/14.md). -/
def out (port : Port) (level : Level) (s : State) : State :=
  { s with outlog := s.outlog ++ [(port, level)] }

/-- Lowering a pulse that is high: `PULSE ← 0; Out(STEP_OUT, 0)` (R82, R108). -/
def lowerPulse (s : State) : State :=
  if s.pulse then out .stepOut false { s with pulse := false } else s

/-- `FIRE(s)` with `s = +1` when `up` and `−1` otherwise (R86). -/
def fire (up : Bool) (s : State) : State :=
  let raised := out .stepOut true { s with pulse := true }
  { raised with pos := code32 (swrap 32 (s.pos.toInt + if up then 1 else -1)) }

/-- The registers the tick reads for its rate: `INC` under strategy A, `TPS`, `DTOTAL` and `DLONG` under strategy B
(R15). -/
inductive TimingParam where
  | phase (inc : ℕ)
  | interval (tps dtotal dlong : ℕ)
  deriving DecidableEq, Repr

/-- The sentinel TimingParameter, at which no step fires (R65). -/
def sentinel (cfg : Config) : TimingParam :=
  match cfg.strategy with
  | .a => .phase 0
  | .b => .interval (2 ^ cfg.wt - 1) 1 0

/-- Writes the TimingParameter registers. Those of the other strategy do not exist, and nothing writes them (R35). -/
def writeTiming : TimingParam → State → State
  | .phase inc, s => { s with inc := inc }
  | .interval tps dtotal dlong, s => { s with tps := tps, dtotal := dtotal, dlong := dlong }

/-- Writes `DCOUNT`, which exists under strategy B alone (R35). -/
def writeDcount (v : ℕ) (s : State) : State :=
  match s.cfg.strategy with
  | .a => s
  | .b => { s with dcount := v }

/-- The sub-step state is set to 0: `ACC`, or `TCNT` and `DCOUNT` (R99). -/
def clearSubStep (s : State) : State :=
  match s.cfg.strategy with
  | .a => { s with acc := 0 }
  | .b => { s with tcnt := 0, dcount := 0 }

/-- Forces Stopped with the sentinel and `DCOUNT ← 0`, as `ENABLE` and `DISABLE` do (R107, R108). -/
def stopMotor (s : State) : State :=
  writeDcount 0 (writeTiming (sentinel s.cfg) { s with dir := .stopped })

/-- The direction output takes the level the new direction requires, written only on a change; Stopped requires none
(R32, R78). -/
def driveDirOut (dir : Dir) (s : State) : State :=
  let drive (level : Level) : State :=
    if level = s.dirlvl then s else out .dirOut level { s with dirlvl := level }
  match dir with
  | .positive => drive s.cfg.dPol
  | .negative => drive (!s.cfg.dPol)
  | .stopped => s
  | .reserved => s

/-- The enable output takes a level, and the event is logged whether or not the level changes (R33, R107, R108). -/
def driveEnOut (level : Level) (s : State) : State :=
  out .enOut level { s with enlvl := level }

end Sys2Proof.Machine
end

