-- ==== Sys2Proof/Machine/Operands.lean ====
section
/-! DEFINITION. The operand formats of 30_encoding.md R52, the formats of `RESULT` (R56), and `CONSTRUCT`'s side input:
the legality of a configuration record (00_scope.md R8). -/

namespace Sys2Proof.Machine

/-- Format S, and the integer an `FX` code counts in units of `2^−16`: `sint(OPD)` (R52). -/
def sint (opd : Word) : ℤ := opd.toInt

/-- The value an integer `FX` code stands for: `c / 2^16` (R12). -/
def fxValue (c : ℤ) : ℚ := c / 2 ^ Config.fv

/-- Formats V and D: `val(OPD) = sint(OPD) / 2^16` (R12, R52). -/
def val (opd : Word) : ℚ := fxValue (sint opd)

/-- Format D to steps: `sat_32(roundHA(d · spd))` (R101). -/
def distanceToSteps (spd : ℚ) (opd : Word) : ℤ := sat Config.wp (roundHA (val opd * spd))

/-- Steps to an `FX` distance code: `sat_32(roundHA(p · 2^16 / spd))` (R103). -/
def stepsToDistance (spd : ℚ) (p : ℤ) : ℤ := sat Config.wv (roundHA (p * 2 ^ Config.fv / spd))

/-- A configuration is well formed when every parameter of R7 takes a legal value (R8). -/
def legalConfig (c : Config) : Bool :=
  decide (1 ≤ c.tickRateHz) && decide (0 < c.spd) && decide (1 ≤ c.u) &&
  decide (4 ≤ c.kB) && decide (c.kB ≤ 8) && decide (0 < c.vStop) &&
  decide (0 < c.eps) && decide (c.eps ≤ 1 / 8) && decide (1 / c.eps ≤ 2 ^ c.wt - 2) &&
  decide (2 ≤ c.n) && decide (8 ≤ c.wt) && decide (1 ≤ c.aw)

end Sys2Proof.Machine
end

