-- ==== Sys2Proof/Machine/Flags.lean ====
section
/-! DEFINITION. The block has no condition codes: no rule sets a flag that a later command tests. This file holds the
conditions the rules compute and use at once: the stop test of `SETVEL` (R63), the wrap test of strategy A (R84) and the
target test of strategy B (R85). -/

namespace Sys2Proof.Machine

/-- The converter's result is Stopped when the block is disabled or the magnitude is below the threshold, strictly
(R63). -/
def stops (enabled : Bool) (vStop a : ℚ) : Bool := !enabled || decide (a < vStop)

/-- The accumulator wrapped: the add fell below, or the subtract rose above, its previous value (R84). -/
def wrapped (up : Bool) (acc nacc : ℕ) : Bool := if up then decide (nacc < acc) else decide (acc < nacc)

/-- The current interval is long: the long intervals come first in each dither cycle (R27, R85). -/
def isLong (s : State) : Bool := decide (s.dcount < s.dlong)

/-- The current target `L`: `TPS + 1` in a long interval, else `TPS` (R85). -/
def target (s : State) : ℕ := s.tps + if isLong s then 1 else 0

end Sys2Proof.Machine
end

