-- ==== Sys2Proof/Machine/RateConverter.lean ====
section
/-! DEFINITION. The rate converter and `SETVEL` (40_rate_converter.md): the velocity limits, the clamp, the phase
increment of strategy A, the dither schedule of strategy B, and the commit. -/

namespace Sys2Proof.Machine

/-- `MAXV_A = tickRateHz · U / (K_A · spd)` (R60). -/
def maxVA (c : Config) : ℚ := c.tickRateHz * c.u / (Config.kA * c.spd)

/-- `MAXV_B = tickRateHz · U / (K_B · spd)` (R60). -/
def maxVB (c : Config) : ℚ := c.tickRateHz * c.u / (c.kB * c.spd)

/-- `MAXV`, the limit of the configured strategy (R60). -/
def maxVOf (c : Config) : ℚ :=
  match c.strategy with
  | .a => maxVA c
  | .b => maxVB c

/-- `MAXCODE = min(floor(MAXV · 2^16), 2^31 − 1)` (R61). -/
def maxCodeOf (maxV : ℚ) : ℤ := min ⌊maxV * 2 ^ Config.fv⌋ (2 ^ 31 - 1)

/-- `c = clamp(c0, −MAXCODE, MAXCODE)` with `c0 = sint(OPD)` (R62). -/
def clampVelocity (maxCode : ℤ) (opd : Word) : ℤ := clamp (sint opd) (-maxCode) maxCode

/-- The magnitude `a = |c| / 2^16` (R62). -/
def magnitude (c : ℤ) : ℚ := fxValue |c|

/-- Strategy A: `INC = round(2^(N−1) · a / MAXV_A)` (R66). -/
def phaseIncrement (c : Config) (a : ℚ) : ℕ := (roundHalfUp (2 ^ (c.n - 1) * a / maxVA c)).toNat

/-- Strategy B: the ideal interval `I = tickRateHz · U / (a · spd)` in ticks per step (R69). -/
def idealInterval (c : Config) (a : ℚ) : ℚ := c.tickRateHz * c.u / (a * c.spd)

/-- The dither cycle length for an addend `off` or `1 − off`: `max(1, round(1 / (addend + EPS)))` (R73, R74). -/
def cycleLength (eps addend : ℚ) : ℕ := (max 1 (roundHalfUp (1 / (addend + eps)))).toNat

/-- Strategy B: `DITHER(a)`, the interval and its dither schedule `(TPS, DTOTAL, DLONG)` (R70 to R74). -/
def dither (c : Config) (a : ℚ) : ℕ × ℕ × ℕ :=
  let ideal := idealInterval c a
  let t := ⌊ideal⌋
  if t > 2 ^ c.wt - 2 then (2 ^ c.wt - 2, 1, 0)
  else
    let off := ideal - t
    if off < 1 / 2 then (t.toNat, cycleLength c.eps off, 1)
    else (t.toNat, cycleLength c.eps (1 - off), cycleLength c.eps (1 - off) - 1)

/-- The TimingParameter of a result that is not Stopped (R66, R69). -/
def runningTiming (c : Config) (a : ℚ) : TimingParam :=
  match c.strategy with
  | .a => .phase (phaseIncrement c a)
  | .b => .interval (dither c a).1 (dither c a).2.1 (dither c a).2.2

/-- The compute part of `SETVEL` on the clamped code `c`: the new direction (R63, R64) and the new TimingParameter. -/
def convert (cfg : Config) (enabled : Bool) (c : ℤ) : Dir × TimingParam :=
  if stops enabled cfg.vStop (magnitude c) then (.stopped, sentinel cfg)
  else (if 0 < c then .positive else .negative, runningTiming cfg (magnitude c))

/-- The commit of `SETVEL`, in the order of R77: `VEL`, the direction output (R78), `DIR`, the TimingParameter, and under
strategy B `DCOUNT` reduced modulo the new `DTOTAL` (R79). -/
def commitVelocity (c : ℤ) (dir : Dir) (timing : TimingParam) (s : State) : State :=
  let driven := driveDirOut dir { s with vel := code32 c }
  let timed := writeTiming timing { driven with dir := dir }
  writeDcount (timed.dcount % timed.dtotal) timed

/-- The effect of `SETVEL` (R77), once the reserved direction is ruled out. -/
def setVelocity (opd : Word) (s : State) : State :=
  let c := clampVelocity s.maxCode opd
  let result := convert s.cfg s.enabled c
  commitVelocity c result.1 result.2 s

/-- `SETVEL` (R77): it completes for every operand (R62, R111). R18 names it a reader of `DIR`, so it refuses the reserved
code as every reader does (R20, R112; notes/assumptions/9.md). -/
def execSetvel (opd : Word) (s : State) : Host.Outcome State Fault Refusal :=
  .next (if s.dir = .reserved then refuse .reservedDirection s else setVelocity opd s)

end Sys2Proof.Machine
end

