-- ==== Sys2Proof/Machine/Control.lean ====
section
/-! DEFINITION. The control commands `GETVEL`, `ENABLE`, `DISABLE` (43_control.md) and `CONSTRUCT`
(70_reset_and_hazards.md R124). -/

namespace Sys2Proof.Machine

/-- `GETVEL` (R106). -/
def execGetvel (s : State) : Host.Outcome State Fault Refusal := .next { s with result := s.vel }

/-- `ENABLE` (R107): `EN_OUT` is written, already enabled or not, and the motor forced Stopped; `VEL` is not replayed. -/
def execEnable (s : State) : Host.Outcome State Fault Refusal :=
  .next (stopMotor (driveEnOut s.cfg.enActive { s with enabled := true }))

/-- `DISABLE` (R108): a high pulse is lowered first, then `EN_OUT` is written and the motor forced Stopped. -/
def execDisable (s : State) : Host.Outcome State Fault Refusal :=
  .next (stopMotor (driveEnOut (!s.cfg.enActive) (lowerPulse { s with enabled := false })))

/-- `CFG` and the limits cached from it (R60, R61, R124). -/
def bindConfig (cfg : Config) (s : State) : State :=
  { s with cfg := cfg, maxV := maxVOf cfg, maxCode := maxCodeOf (maxVOf cfg) }

/-- The registers `CONSTRUCT` resets, each to R18's "reset" column; those of the other strategy do not exist (R35). -/
def resetRegisters (s : State) : State :=
  clearSubStep (writeTiming (sentinel s.cfg)
    { s with built := true, enabled := false, dir := .stopped, vel := 0, pos := 0, result := 0 })

/-- The three ports, in the order of R124: `STEP_OUT`, `DIR_OUT`, `EN_OUT`. -/
def resetPorts (s : State) : State :=
  driveEnOut (!s.cfg.enActive)
    (out .dirOut false (out .stepOut false { s with pulse := false, dirlvl := false }))

/-- The effect of `CONSTRUCT` with a legal configuration (R124). `REFUSED` and `OUTLOG` are kept (R36, R112). -/
def constructed (cfg : Config) (s : State) : State := resetPorts (resetRegisters (bindConfig cfg s))

/-- `CONSTRUCT` (R124) with the record on its side input; an ill-formed one is refused, and the previous state stays
(R113). -/
def execConstruct (s : State) : Host.Outcome State Fault Refusal :=
  .next (if legalConfig s.cfgIn then constructed s.cfgIn s else refuse .illFormedConfig s)

end Sys2Proof.Machine
end

