-- ==== Sys2Proof/Machine/PositionStore.lean ====
section
/-! DEFINITION. The position store: `SETPOS`, `SETPOSD`, `GETPOS`, `GETPOSD` (42_position_store.md). -/

namespace Sys2Proof.Machine

/-- An overwrite of `POS`: the sub-step state is cleared in the same atomic section, no port is written and no pulse
emitted (R48, R99). -/
def overwritePosition (n : ℤ) (s : State) : State := clearSubStep { s with pos := code32 n }

/-- `SETPOS` (R100). -/
def execSetpos (opd : Word) (s : State) : Host.Outcome State Fault Refusal :=
  .next (overwritePosition (sint opd) s)

/-- `SETPOSD` (R101): the product and the rounding come before the commit. -/
def execSetposd (opd : Word) (s : State) : Host.Outcome State Fault Refusal :=
  .next (overwritePosition (distanceToSteps s.cfg.spd opd) s)

/-- `GETPOS` (R102): one atomic read. -/
def execGetpos (s : State) : Host.Outcome State Fault Refusal := .next { s with result := s.pos }

/-- `GETPOSD` (R103): an atomic snapshot of `POS`, then the division on the copy. -/
def execGetposd (s : State) : Host.Outcome State Fault Refusal :=
  .next { s with result := code32 (stepsToDistance s.cfg.spd s.pos.toInt) }

end Sys2Proof.Machine
end

