-- ==== Sys2Proof/Machine/Scheduler.lean ====
section
/-! DEFINITION. The pulse scheduler, `TICK` (41_tick.md). -/

namespace Sys2Proof.Machine

/-- The accumulator after the tick's add or subtract, modulo `2^N` (R84). -/
def nextPhase (up : Bool) (s : State) : ℕ :=
  (wrap s.cfg.n (if up then (s.acc : ℤ) + s.inc else (s.acc : ℤ) - s.inc)).toNat

/-- Strategy A: the accumulator advances, and a wrap fires a step (R84), unless the tick started with the pulse high
(`hp`): then a wrap is deferred and the accumulator held (R87). -/
def advancePhase (hp up : Bool) (s : State) : State :=
  let nacc := nextPhase up s
  let w := wrapped up s.acc nacc
  if w && hp then s
  else if w then fire up { s with acc := nacc }
  else { s with acc := nacc }

/-- The tick counter one on, saturating at `2^WT − 1` (R28, R85). -/
def nextCount (s : State) : ℕ := min (s.tcnt + 1) (2 ^ s.cfg.wt - 1)

/-- Strategy B: the counter advances, and at its target a step fires and the dither position moves on (R85), unless the
tick started with the pulse high (`hp`): then the count is stored and the next tick fires (R87). -/
def advanceCount (hp up : Bool) (s : State) : State :=
  let t := nextCount s
  if decide (target s ≤ t) && !hp then
    fire up { s with tcnt := 0, dcount := (s.dcount + 1) % s.dtotal }
  else { s with tcnt := t }

/-- A tick that is not Stopped, after the lowering phase (R84, R85). -/
def advance (hp up : Bool) (s : State) : State :=
  match s.cfg.strategy with
  | .a => advancePhase hp up s
  | .b => advanceCount hp up s

/-- A Stopped tick after the lowering phase: nothing, but under strategy B the counter is held at 0 (R83). -/
def holdStopped (s : State) : State :=
  match s.cfg.strategy with
  | .a => s
  | .b => { s with tcnt := 0 }

/-- The effect of `TICK` (R81): the lowering phase first (R82), then by the direction. `DIR = 3` is refused, with nothing
changed (R20, R112). -/
def tickOnce (s : State) : State :=
  match s.dir with
  | .stopped => holdStopped (lowerPulse s)
  | .positive => advance s.pulse true (lowerPulse s)
  | .negative => advance s.pulse false (lowerPulse s)
  | .reserved => refuse .reservedDirection s

/-- `TICK` (R81). -/
def execTick (s : State) : Host.Outcome State Fault Refusal := .next (tickOnce s)

/-- The fractional position `POS + ACC / 2^N` of strategy A, which no command returns and rules about the accumulator are
stated in (R30). -/
def fractionalPosition (s : State) : ℚ := s.pos.toInt + s.acc / 2 ^ s.cfg.n

end Sys2Proof.Machine
end

