-- ==== Sys2Proof/Machine/Dispatch.lean ====
section
/-! DEFINITION. One arm per command. -/

namespace Sys2Proof.Machine

def exec (i : Instr) (s : State) : Host.Outcome State Fault Refusal :=
  match i with
  | .construct => Sys2Proof.Machine.execConstruct s
  | .enable => Sys2Proof.Machine.execEnable s
  | .disable => Sys2Proof.Machine.execDisable s
  | .setvel opd => Sys2Proof.Machine.execSetvel opd s
  | .getvel => Sys2Proof.Machine.execGetvel s
  | .setpos opd => Sys2Proof.Machine.execSetpos opd s
  | .setposd opd => Sys2Proof.Machine.execSetposd opd s
  | .getpos => Sys2Proof.Machine.execGetpos s
  | .getposd => Sys2Proof.Machine.execGetposd s
  | .tick => Sys2Proof.Machine.execTick s

end Sys2Proof.Machine
end

