-- ==== Sys2Proof/Decode.lean ====
section
/-! DEFINITION. The decoder of 30_encoding.md R54, total on every 40-bit word, and after it the encoder, written from
the opcode map of R53. -/

namespace Sys2Proof

/-- `OPC = w[39:32]` (R51). -/
def opcOf (w : CommandWord) : BitVec 8 := w.extractLsb' 32 8

/-- `OPD = w[31:0]` (R51). -/
def opdOf (w : CommandWord) : Word := w.extractLsb' 0 32

/-- The command word taken apart (R51). -/
def commandOf (w : CommandWord) : Command := ⟨opcOf w, opdOf w⟩

/-- A Z-format command takes no operand: `OPD` must be zero (R52, R54). -/
def zFormat (opd : Word) (i : Instr) : Except RefusalReason Instr :=
  if opd = 0 then .ok i else .error .nonZeroOperand

/-- The first two checks of R54, the ones a word alone decides: a reserved opcode, then a non-zero operand of a Z-format
command. -/
def decodeWord (w : CommandWord) : Except RefusalReason Instr :=
  match (opcOf w).toNat with
  | 0x01 => zFormat (opdOf w) .construct
  | 0x02 => zFormat (opdOf w) .enable
  | 0x03 => zFormat (opdOf w) .disable
  | 0x10 => .ok (.setvel (opdOf w))
  | 0x11 => zFormat (opdOf w) .getvel
  | 0x20 => .ok (.setpos (opdOf w))
  | 0x21 => .ok (.setposd (opdOf w))
  | 0x22 => zFormat (opdOf w) .getpos
  | 0x23 => zFormat (opdOf w) .getposd
  | 0x30 => zFormat (opdOf w) .tick
  | _ => .error .reservedOpcode

/-- `issuer(opc)` of R54: `TICKSRC` for `TICK`, `HOST` for every other command. -/
def issuer : Instr → Agent
  | .tick => .ticksrc
  | .construct => .host
  | .enable => .host
  | .disable => .host
  | .setvel _ => .host
  | .getvel => .host
  | .setpos _ => .host
  | .setposd _ => .host
  | .getpos => .host
  | .getposd => .host

/-- `decode(w, agent)` of R54 while `BUILT` is `built`: the four checks in the order given there, the first that fails
naming the refusal. -/
def decode (w : CommandWord) (agent : Agent) (built : Bool) : Except RefusalReason Instr :=
  match decodeWord w with
  | .error r => .error r
  | .ok i =>
    if issuer i ≠ agent then .error .wrongContext
    else if built = false ∧ i ≠ .construct then .error .notConstructed
    else .ok i

/-- The number R112 gives each reason. -/
def RefusalReason.code : RefusalReason → ℕ
  | .reservedOpcode => 1
  | .nonZeroOperand => 2
  | .wrongContext => 3
  | .notConstructed => 4
  | .illFormedConfig => 5
  | .reservedDirection => 6

/-- The instruction the decoder reads from a row of spec/opcode_table.json whose bits are `w`, the bits from `nbits` up
being zero. -/
def decodeTableWord (nbits w : ℕ) : Option Instr :=
  match decodeWord (BitVec.ofNat 40 (w % 2 ^ nbits)) with
  | .ok i => some i
  | .error _ => none

/-- The opcode of each command (R53). -/
def opcode : Instr → BitVec 8
  | .construct => 0x01
  | .enable => 0x02
  | .disable => 0x03
  | .setvel _ => 0x10
  | .getvel => 0x11
  | .setpos _ => 0x20
  | .setposd _ => 0x21
  | .getpos => 0x22
  | .getposd => 0x23
  | .tick => 0x30

/-- The operand field of each command: its operand in formats V, S and D, zero in format Z (R52). -/
def operand : Instr → Word
  | .setvel opd => opd
  | .setpos opd => opd
  | .setposd opd => opd
  | .construct => 0
  | .enable => 0
  | .disable => 0
  | .getvel => 0
  | .getpos => 0
  | .getposd => 0
  | .tick => 0

/-- The command word of an instruction: `OPC` above `OPD` (R51). -/
def encode (i : Instr) : CommandWord := opcode i ++ operand i

/-- The instruction as its rightful issuer presents it, the side input left as it is. -/
def Instr.presented (i : Instr) : Presented := ⟨issuer i, encode i, none⟩

end Sys2Proof
end

