-- ==== Sys2Proof/Machine/Present.lean ====
section
/-! DEFINITION. How a command reaches the block: the agents present commands one at a time, in one total order
(00_scope.md R6, 20_memory.md R45, 30_encoding.md R51). -/

namespace Sys2Proof.Machine

/-- The state in which the presented command `p` is taken up: it has left the order of commands to come, and the side
input holds the record presented beside it, if there is one. No register of the block changes. -/
def accept (p : Presented) (rest : List Presented) (s : State) : State :=
  { s with pending := rest, cfgIn := p.cfg.getD s.cfgIn }

/-- The agent from which the word of a table row is taken: the issuer of its command, `HOST` for a word that decodes to
none. -/
def rightfulAgent (w : CommandWord) : Agent :=
  match decodeWord w with
  | .ok i => issuer i
  | .error _ => .host

/-- The state with the word `w` presented next by its rightful agent, `BUILT` set where the word needs it: every command
but `CONSTRUCT` is refused while `BUILT = 0` (R54; notes/assumptions/11.md). -/
def presentNext (w : CommandWord) (s : State) : State :=
  { s with
    pending := ⟨rightfulAgent w, w, none⟩ :: s.pending
    built := s.built || opcOf w != 0x01 }

end Sys2Proof.Machine
end

