-- ==== Sys2Proof/Machine/Step.lean ====
section
/-! DEFINITION. One transition of the block: the next presented command, decoded and run or refused (30_encoding.md R54,
60_exceptions.md R114). -/

namespace Sys2Proof.Machine

/-- One transition. With no command presented the block stays as it is (notes/assumptions/1.md). A command that fails a
check of R54 is refused, which is a next state with `REFUSED = 1` (R112); the run goes on. -/
def step (s : State) : Host.Outcome State Fault Refusal :=
  match s.pending with
  | [] => .next s
  | p :: rest =>
    match decode p.word p.agent s.built with
    | .ok i => exec i (accept p rest s)
    | .error r => .next (refuse r (accept p rest s))

/-- `s` with the instruction whose bits are `w` presented next, so that the very next step runs it. -/
def State.withFetchWord (s : State) (nbits w : ℕ) : State :=
  presentNext (BitVec.ofNat 40 (w % 2 ^ nbits)) s

end Sys2Proof.Machine
end

