-- ==== Sys2Proof/Machine/Assembler.lean ====
section
/-! DEFINITION. The assembler of 30_encoding.md R57 and R58: a line of text read as an `AsmLine`, and an `AsmLine` turned
into the commands its agents present. It is notation in front of the block, not part of it: no step reads this file.
What R57 leaves open of the text is in notes/assumptions/13.md. -/

namespace Sys2Proof.Machine

/-! ## From a line to commands -/

/-- The integer is in `[−2^31, 2^31 − 1]`, the range of an operand code (R57). -/
def fitsWord (n : ℤ) : Bool := decide (-2147483648 ≤ n) && decide (n ≤ 2147483647)

/-- The code of a V or D operand: a decimal `x` is the integer `x · 2^16` when that is an integer that fits, and an
assembly error otherwise; a raw code stands for itself (R57). -/
def assembleOperand : AsmOperand → Option Word
  | .decimal x =>
    let scaled : ℚ := x * 2 ^ Config.fv
    if scaled.den == 1 && fitsWord scaled.num then some (code32 scaled.num) else none
  | .raw code => some code

/-- The code of an S operand: any integer that fits in 32 bits (R57). -/
def assembleSteps (n : ℤ) : Option Word :=
  if fitsWord n then some (code32 n) else none

/-- The commands a line stands for (R53, R57, R58), or `none` for an assembly error. -/
def assemble : AsmLine → Option (List Instr)
  | .construct => some [.construct]
  | .enable => some [.enable]
  | .disable => some [.disable]
  | .setvel v => (assembleOperand v).map fun code => [.setvel code]
  | .getvel => some [.getvel]
  | .setpos n => (assembleSteps n).map fun code => [.setpos code]
  | .setposd d => (assembleOperand d).map fun code => [.setposd code]
  | .getpos => some [.getpos]
  | .getposd => some [.getposd]
  | .tick => some [.tick]
  | .stop => some [.setvel 0]
  | .zero => some [.setpos 0]
  | .ticks k => if 1 ≤ k then some (List.replicate k .tick) else none

/-- A program in source order, as its agents present it: `TICK` from `TICKSRC`, every other command from `HOST` (R53). -/
def program : List AsmLine → Option (List Presented)
  | [] => some []
  | line :: rest =>
    match assemble line, program rest with
    | some commands, some more => some (commands.map Instr.presented ++ more)
    | _, _ => none

/-! ## From text to a line -/

/-- The words of a text, separated by white space. -/
def tokens (text : List Char) : List (List Char) :=
  (text.foldr
    (fun c words =>
      if c.isWhitespace then [] :: words
      else match words with
        | [] => [[c]]
        | w :: rest => (c :: w) :: rest)
    []).filter fun w => !w.isEmpty

/-- An unsigned numeral in a base: at least one digit, each read by `digit`. -/
def numeral (base : ℕ) (digit : Char → Option ℕ) : List Char → Option ℕ
  | [] => none
  | c :: cs => (c :: cs).foldl (fun acc d => do return base * (← acc) + (← digit d)) (some 0)

/-- A decimal digit: its place in the row of digits. -/
def decDigit (c : Char) : Option ℕ := "0123456789".toList.idxOf? c

/-- A hexadecimal digit, in either case: its place in the row of digits. -/
def hexDigit (c : Char) : Option ℕ := "0123456789abcdef".toList.idxOf? c.toLower

/-- A decimal numeral with an optional fraction. -/
def unsignedDecimal (text : List Char) : Option ℚ :=
  if text.contains '.' then do
    let whole ← numeral 10 decDigit (text.takeWhile (· != '.'))
    let fraction := (text.dropWhile (· != '.')).drop 1
    let part ← numeral 10 decDigit fraction
    return (whole : ℚ) + part / 10 ^ fraction.length
  else (numeral 10 decDigit text).map fun n => (n : ℚ)

/-- A number after an optional sign. -/
def signed (α : Type) [Neg α] (number : List Char → Option α) : List Char → Option α
  | '-' :: cs => (number cs).map Neg.neg
  | '+' :: cs => number cs
  | cs => number cs

/-- A V or D operand: `#0x` and 1 to 8 hexadecimal digits, or a decimal (R57). -/
def parseOperand : List Char → Option AsmOperand
  | '#' :: '0' :: 'x' :: digits =>
    if digits.length ≤ 8 then (numeral 16 hexDigit digits).map fun n => .raw (BitVec.ofNat 32 n) else none
  | text => (signed ℚ unsignedDecimal text).map .decimal

/-- An S operand: a decimal integer (R57). -/
def parseSteps (text : List Char) : Option ℤ :=
  signed ℤ (fun cs => (numeral 10 decDigit cs).map fun n => (n : ℤ)) text

/-- A mnemonic and its operands (R57, R58). -/
def parseCommand (mnemonic : List Char) (operands : List (List Char)) : Option AsmLine :=
  match String.ofList mnemonic, operands with
  | "CONSTRUCT", [] => some .construct
  | "ENABLE", [] => some .enable
  | "DISABLE", [] => some .disable
  | "SETVEL", [v] => (parseOperand v).map .setvel
  | "GETVEL", [] => some .getvel
  | "SETPOS", [n] => (parseSteps n).map .setpos
  | "SETPOSD", [d] => (parseOperand d).map .setposd
  | "GETPOS", [] => some .getpos
  | "GETPOSD", [] => some .getposd
  | "TICK", [] => some .tick
  | "STOP", [] => some .stop
  | "ZERO", [] => some .zero
  | "TICKS", [k] => (numeral 10 decDigit k).map .ticks
  | _, _ => none

/-- The line without its label `name:`, if it starts with one (R57). A label is one word. -/
def stripLabel (text : List Char) : Option (List Char) :=
  if text.contains ':' then
    if (tokens (text.takeWhile (· != ':'))).length = 1 then some ((text.dropWhile (· != ':')).drop 1) else none
  else some text

/-- A line of source: an optional label, an optional command, an optional comment from `;` on (R57). The outer `none` is
an assembly error, the inner `none` a line that holds no command. -/
def parseLine (text : List Char) : Option (Option AsmLine) := do
  match tokens (← stripLabel (text.takeWhile (· != ';'))) with
  | [] => return none
  | mnemonic :: operands => return some (← parseCommand mnemonic operands)

end Sys2Proof.Machine
end

