-- ==== Sys2Proof/Safety.lean ====
section
/-! DEFINITION. The terms claims about the block are stated in: what is observed (10_state.md R36, 60_exceptions.md
R123), runs of several commands, step edges, and the invariant of every block that has been constructed. -/

namespace Sys2Proof.Machine

/-! ## Observation -/

/-- The last level written to a port, if any was (R31). -/
def portLevel (port : Port) : List (Port × Level) → Option Level
  | [] => none
  | e :: later =>
    match portLevel port later with
    | some level => some level
    | none => if e.1 = port then some e.2 else none

/-- The rising edges of the step output in a trace: its events `(STEP_OUT, 1)`. A pulse is raised only while the output
is low, so each is an edge (R87). -/
def risingEdges (log : List (Port × Level)) : ℕ := log.count (.stepOut, true)

/-- The sign a step has in a direction (R86). -/
def stepSign : Dir → ℤ
  | .positive => 1
  | .negative => -1
  | .stopped => 0
  | .reserved => 0

/-- What a claim about the block observes: `OUTLOG`, `RESULT` and `POS` (R36). -/
structure Observation where
  outlog : List (Port × Level)
  result : Word
  pos : Word
  deriving DecidableEq, Repr

/-- The observation of a state. -/
def observe (s : State) : Observation := ⟨s.outlog, s.result, s.pos⟩

/-- The premise of a claim about a run: no command of it was refused (R112). -/
def unrefused (s : State) : Bool := !s.refused

/-! ## Runs -/

/-- The commands of a list, one after the other, each one transition (R45). -/
def execAll : List Instr → State → Host.Outcome State Fault Refusal
  | [], s => .next s
  | i :: later, s =>
    match exec i s with
    | .next t => execAll later t
    | .fault r => .fault r
    | .refused r => .refused r

/-- `k` ticks with no `HOST` command between them (R58). -/
def ticks (k : ℕ) : List Instr := List.replicate k .tick

/-- The rising edges a run fires with `DIR = Positive`, less those it fires with `DIR = Negative` (R90). -/
def signedEdges : List Instr → State → ℤ
  | [], _ => 0
  | i :: later, s =>
    match exec i s with
    | .next t => stepSign s.dir * ((risingEdges t.outlog : ℤ) - risingEdges s.outlog) + signedEdges later t
    | .fault _ => 0
    | .refused _ => 0

/-- The command overwrites the position store (R98, R124). -/
def overwritesPosition : Instr → Bool
  | .setpos _ => true
  | .setposd _ => true
  | .construct => true
  | .enable => false
  | .disable => false
  | .setvel _ => false
  | .getvel => false
  | .getpos => false
  | .getposd => false
  | .tick => false

/-- The state with every register absent under its strategy blotted out (R35). -/
def withoutAbsent (s : State) : State :=
  match s.cfg.strategy with
  | .a => { s with tps := 0, dtotal := 0, dlong := 0, dcount := 0, tcnt := 0 }
  | .b => { s with inc := 0, acc := 0 }

/-- The premise of a claim about the spacing of step edges (R133, among the hazards of 70_reset_and_hazards.md §3): in the
run only ticks lower a high pulse, no `DISABLE` and no `CONSTRUCT` runs while `PULSE = 1`. -/
def pulsesEndOnTicks : List Instr → State → Prop
  | [], _ => True
  | i :: later, s =>
    (s.pulse = true → i ∉ [.disable, .construct]) ∧ ∀ t, exec i s = .next t → pulsesEndOnTicks later t

/-- What no command may change in the commands to come and on the side input. -/
def sameInputs (s t : State) : Prop := t.pending = s.pending ∧ t.cfgIn = s.cfgIn

/-! ## The invariant of a constructed block -/

/-- `CFG` is well formed (R8, R113) and the cached limits are its own (R60, R61). -/
def ConfigInv (s : State) : Prop :=
  legalConfig s.cfg = true ∧ s.maxV = maxVOf s.cfg ∧ s.maxCode = maxCodeOf (maxVOf s.cfg)

/-- `DIR` is one of its three values (R20), a disabled block is Stopped (R21), and `VEL` lies within `±MAXCODE` (R22). -/
def ControlInv (s : State) : Prop :=
  s.dir ≠ .reserved ∧ (s.enabled = false → s.dir = .stopped) ∧
  -s.maxCode ≤ s.vel.toInt ∧ s.vel.toInt ≤ s.maxCode

/-- Strategy A: `0 ≤ INC ≤ 2^(N−1)` (R23, R67), `ACC` fits its `N` bits (R26), and `INC` is the sentinel while Stopped
(R65). -/
def PhaseInv (s : State) : Prop :=
  s.cfg.strategy = .a → s.inc ≤ 2 ^ (s.cfg.n - 1) ∧ s.acc < 2 ^ s.cfg.n ∧ (s.dir = .stopped → s.inc = 0)

/-- Strategy B: `TPS` in range while running and the sentinel while Stopped (R24, R65), the dither registers in range
(R25, R27), every register within its `WT` bits (R18, R28). -/
def IntervalInv (s : State) : Prop :=
  s.cfg.strategy = .b →
    (s.dir = .stopped → s.tps = 2 ^ s.cfg.wt - 1 ∧ s.dtotal = 1 ∧ s.dlong = 0) ∧
    (s.dir ≠ .stopped → s.cfg.kB ≤ s.tps ∧ s.tps ≤ 2 ^ s.cfg.wt - 2) ∧
    1 ≤ s.dtotal ∧ s.dtotal ≤ 2 ^ s.cfg.wt - 2 ∧ s.dlong ≤ s.dtotal ∧ s.dcount < s.dtotal ∧
    s.tcnt ≤ 2 ^ s.cfg.wt - 1

/-- Each port stands at the level of its register, the last one written to it (R31, R32, R33); the enable output says
whether the motor is enabled (R33), and the direction output agrees with the direction while running (R32). -/
def PortInv (s : State) : Prop :=
  portLevel .stepOut s.outlog = some s.pulse ∧ portLevel .dirOut s.outlog = some s.dirlvl ∧
  portLevel .enOut s.outlog = some s.enlvl ∧
  s.enlvl = (if s.enabled then s.cfg.enActive else !s.cfg.enActive) ∧
  (s.dir = .positive → s.dirlvl = s.cfg.dPol) ∧ (s.dir = .negative → s.dirlvl = !s.cfg.dPol)

/-- The invariant: a refusal and its reason go together, and once `BUILT = 1` every register holds a legal value. Before
the first `CONSTRUCT` the spec promises nothing of the registers. -/
def Inv (s : State) : Prop :=
  s.refused = s.lastRefusal.isSome ∧
  (s.built = true → ConfigInv s ∧ ControlInv s ∧ PhaseInv s ∧ IntervalInv s ∧ PortInv s)

end Sys2Proof.Machine
end

