-- ==== Sys2Proof/WellFormed.lean ====
section
/-! DEFINITION. The checks that make a term of Syntax.lean meaningful, written from the spec's own lists and apart from
the decoder, so that the two can be held against each other: a command (R53, R55), a command as presented (R54's
issuer check) and an assembler line (R57, R58). An `Instr` needs no check: its operands are whole 32-bit words, and the
spec gives every one of them a meaning (R111). -/

namespace Sys2Proof

/-- The `OPC` values of the opcode map (R53). -/
def definedOpcodes : List (BitVec 8) := [0x01, 0x02, 0x03, 0x10, 0x11, 0x20, 0x21, 0x22, 0x23, 0x30]

/-- The `OPC` values of the Z-format commands (R53; listed in 93_implementation_defined.md I14). -/
def zFormatOpcodes : List (BitVec 8) := [0x01, 0x02, 0x03, 0x11, 0x22, 0x23, 0x30]

namespace Command

/-- The opcode is not reserved (R55). -/
def hasDefinedOpcode (c : Command) : Bool := definedOpcodes.contains c.opc

/-- A Z-format command has an all-zero operand (R52). -/
def hasLegalOperand (c : Command) : Bool := !zFormatOpcodes.contains c.opc || c.opd == 0

/-- The command has a meaning as a word (R55): a defined opcode, and no operand where there is none. -/
def wellFormed (c : Command) : Bool := c.hasDefinedOpcode && c.hasLegalOperand

/-- The only agent that may issue the command: `TICKSRC` for `TICK`, `HOST` for every other (R53). -/
def issuedBy (c : Command) (agent : Agent) : Bool := (c.opc == 0x30) == (agent == .ticksrc)

end Command

namespace AsmOperand

/-- A decimal operand is legal only when `x · 2^16` is an integer in `[−2^31, 2^31 − 1]`; the assembler does not round
(R57). A raw code is any 32-bit word. -/
def wellFormed : AsmOperand → Bool
  | .decimal x =>
    let scaled : ℚ := x * 65536
    decide (scaled.den = 1) && decide (-2147483648 ≤ scaled) && decide (scaled ≤ 2147483647)
  | .raw _ => true

end AsmOperand

namespace AsmLine

/-- The line assembles: its operand is legal (R57), and `TICKS k` has `k ≥ 1` (R58). -/
def wellFormed : AsmLine → Bool
  | .setvel v => v.wellFormed
  | .setposd d => d.wellFormed
  | .setpos n => decide (-2147483648 ≤ n) && decide (n ≤ 2147483647)
  | .ticks k => decide (1 ≤ k)
  | .construct => true
  | .enable => true
  | .disable => true
  | .getvel => true
  | .getpos => true
  | .getposd => true
  | .tick => true
  | .stop => true
  | .zero => true

end AsmLine

end Sys2Proof
end

