-- ==== Sys2Proof/Certificates/Slice0/Obligations.lean ====
section
/-! DEFINITION. The statements for the provers, each from the numbered rules its docstring names. A meaning is stated as
the whole next state, so that a statement of a result is a statement of the frame too. -/

open Sys2Proof Sys2Proof.Machine

/-! ## Encoding -/

/-- The rows of R59: an assembler line and the word it stands for. -/
def Sys2Proof.sampleEncodings : List (AsmLine × CommandWord) :=
  [(.setvel (.decimal 40), 0x1000280000), (.setvel (.decimal (-40)), 0x10FFD80000),
   (.setvel (.decimal (125 / 4)), 0x10001F4000), (.setvel (.decimal (125 / 2)), 0x10003E8000),
   (.setvel (.decimal 125), 0x10007D0000), (.setvel (.decimal 200), 0x1000C80000),
   (.setvel (.decimal 0), 0x1000000000), (.stop, 0x1000000000),
   (.setpos (-5), 0x20FFFFFFFB), (.setpos 0, 0x2000000000), (.zero, 0x2000000000),
   (.setposd (.decimal (3 / 2)), 0x2100018000), (.getpos, 0x2200000000), (.getposd, 0x2300000000),
   (.getvel, 0x1100000000), (.enable, 0x0200000000), (.disable, 0x0300000000),
   (.construct, 0x0100000000), (.tick, 0x3000000000)]

/-- R59: each sample line assembles to the one command its word encodes and decodes to. -/
def Obligations.SampleWordsDecode : Prop :=
  ∀ row ∈ sampleEncodings, ∃ i, assemble row.1 = some [i] ∧ encode i = row.2 ∧ decodeWord row.2 = .ok i

/-- R51 and R53: a word decodes to a command exactly when it is the command's encoding, for every command at every value
of its operand. -/
def Obligations.DecodeEncodeAgree : Prop :=
  ∀ (w : CommandWord) (i : Instr), decodeWord w = .ok i ↔ w = encode i

/-- R54: the four checks in their order, the first that fails naming the refusal, and otherwise the command of the opcode
with the operand of the word. The checks are those of WellFormed.lean, not the decoder's own. -/
def Obligations.DecodeChecksInOrder : Prop :=
  ∀ (w : CommandWord) (agent : Agent) (built : Bool),
    if (commandOf w).hasDefinedOpcode = false then decode w agent built = .error .reservedOpcode
    else if (commandOf w).hasLegalOperand = false then decode w agent built = .error .nonZeroOperand
    else if (commandOf w).issuedBy agent = false then decode w agent built = .error .wrongContext
    else if built = false ∧ opcOf w ≠ 0x01 then decode w agent built = .error .notConstructed
    else ∃ i, decode w agent built = .ok i ∧ opcode i = opcOf w ∧ operand i = opdOf w

/-- R55: 246 of the 256 opcodes are reserved. Whatever its operand, issuer and time, such a word is refused, and it is
neither ignored nor a trap: the step goes on with `REFUSED` set and the registers as they were (that the reason stands
in `lastRefusal` is the model's choice, notes/assumptions/2.md). A non-zero operand of a Z-format command is refused in
the same way. -/
def Obligations.ReservedOpcodesRefused : Prop :=
  ((List.range 256).filter fun n => !definedOpcodes.contains (BitVec.ofNat 8 n)).length = 246 ∧
  (∀ (s : State) (p : Presented) (rest : List Presented), s.pending = p :: rest → opcOf p.word ∉ definedOpcodes →
    step s = .next { s with pending := rest, cfgIn := p.cfg.getD s.cfgIn, refused := true,
                            lastRefusal := some .reservedOpcode }) ∧
  (∀ (s : State) (p : Presented) (rest : List Presented), s.pending = p :: rest →
    opcOf p.word ∈ zFormatOpcodes → opdOf p.word ≠ 0 →
    step s = .next { s with pending := rest, cfgIn := p.cfg.getD s.cfgIn, refused := true,
                            lastRefusal := some .nonZeroOperand })

/-- R57: a line assembles exactly when its operand is legal. A Z line stands for its command; a `SETVEL` or `SETPOSD` line
for that command with a code of exactly the decimal's value (R12), or with the raw code itself; a `SETPOS` line for that
command with the code of the integer. -/
def Obligations.AssemblerTakesLegalLines : Prop :=
  (∀ line : AsmLine, (assemble line).isSome = line.wellFormed) ∧
  (∀ (line : AsmLine) (i : Instr),
    (line, i) ∈ [(.construct, .construct), (.enable, .enable), (.disable, .disable), (.getvel, .getvel),
      (.getpos, .getpos), (.getposd, .getposd), (.tick, .tick)] → assemble line = some [i]) ∧
  (∀ (x : ℚ) (is : List Instr), assemble (.setvel (.decimal x)) = some is →
    ∃ code : Word, is = [.setvel code] ∧ (code.toInt : ℚ) / 65536 = x) ∧
  (∀ (x : ℚ) (is : List Instr), assemble (.setposd (.decimal x)) = some is →
    ∃ code : Word, is = [.setposd code] ∧ (code.toInt : ℚ) / 65536 = x) ∧
  (∀ code : Word, assemble (.setvel (.raw code)) = some [.setvel code] ∧
    assemble (.setposd (.raw code)) = some [.setposd code]) ∧
  (∀ (n : ℤ) (is : List Instr), assemble (.setpos n) = some is →
    ∃ code : Word, is = [.setpos code] ∧ code.toInt = n)

/-- R58: the three pseudo-instructions and the commands they stand for. -/
def Obligations.PseudoInstructionsExpand : Prop :=
  assemble .stop = assemble (.setvel (.decimal 0)) ∧ assemble .stop = some [.setvel 0] ∧
  assemble .zero = assemble (.setpos 0) ∧ assemble .zero = some [.setpos 0] ∧
  (∀ k : ℕ, 1 ≤ k → assemble (.ticks k) = some (List.replicate k .tick)) ∧
  (∀ k : ℕ, 1 ≤ k → program [.ticks k] = some (List.replicate k ⟨.ticksrc, 0x3000000000, none⟩))

/-! ## A step -/

/-- R54 and R6: when the next presented command passes every check, the step is that command's meaning, run on the state
from which the command has been taken and whose side input holds the record presented with it. -/
def Obligations.StepRunsDecodedCommand : Prop :=
  ∀ (s : State) (p : Presented) (rest : List Presented) (i : Instr),
    s.pending = p :: rest → decode p.word p.agent s.built = .ok i →
    step s = exec i { s with pending := rest, cfgIn := p.cfg.getD s.cfgIn }

/-- R112 and R114: a command that fails a check has no effect but `REFUSED ← 1`. That its reason is recorded in
`lastRefusal`, and that a block with nothing presented stays as it is, are the model's choices (notes/assumptions/2.md
and 1.md). -/
def Obligations.StepRefusesWithoutEffect : Prop :=
  (∀ (s : State) (p : Presented) (rest : List Presented) (r : RefusalReason),
    s.pending = p :: rest → decode p.word p.agent s.built = .error r →
    step s = .next { s with pending := rest, cfgIn := p.cfg.getD s.cfgIn, refused := true, lastRefusal := some r }) ∧
  (∀ s : State, s.pending = [] → step s = .next s)

/-- R111, R50 and R6: no step stops the machine, whatever the state and the command, and each takes exactly the next
presented command. The host's interface places a word so (notes/assumptions/11.md): presented by its issuer to a
constructed block, any word that decodes runs. -/
def Obligations.EveryStepTakesOneCommand : Prop :=
  (∀ s : State, ∃ t, step s = .next t ∧ t.pending = s.pending.tail) ∧
  (∀ (s : State) (w : ℕ) (i : Instr), decodeTableWord 40 w = some i →
    step (s.withFetchWord 40 w) = exec i { s with built := s.built || i != .construct })

/-- R112: nothing clears `REFUSED`, not even `CONSTRUCT`. -/
def Obligations.RefusedStaysSet : Prop :=
  ∀ s t : State, step s = .next t → s.refused = true → t.refused = true

/-- R36: no step clears or rewrites `OUTLOG`; it only grows at its end. -/
def Obligations.OutlogOnlyGrows : Prop :=
  ∀ s t : State, step s = .next t → ∃ events, t.outlog = s.outlog ++ events ∧ events.length ≤ 3

/-! ## The commands' results -/

/-- R107: the whole effect of `ENABLE`. -/
def Obligations.EnableResult : Prop :=
  opcode .enable = 0x02 ∧ issuer .enable = .host ∧
  ∀ s : State, exec .enable s = .next { s with
    enabled := true
    enlvl := s.cfg.enActive
    outlog := s.outlog ++ [(.enOut, s.cfg.enActive)]
    dir := .stopped
    inc := if s.cfg.strategy = .a then 0 else s.inc
    tps := if s.cfg.strategy = .b then 2 ^ s.cfg.wt - 1 else s.tps
    dtotal := if s.cfg.strategy = .b then 1 else s.dtotal
    dlong := if s.cfg.strategy = .b then 0 else s.dlong
    dcount := if s.cfg.strategy = .b then 0 else s.dcount }

/-- R108: the whole effect of `DISABLE`; a high pulse is lowered before the enable output is written. -/
def Obligations.DisableResult : Prop :=
  opcode .disable = 0x03 ∧ issuer .disable = .host ∧
  ∀ s : State, exec .disable s = .next { s with
    enabled := false
    pulse := false
    enlvl := !s.cfg.enActive
    outlog := s.outlog ++ (if s.pulse then [(.stepOut, false)] else []) ++ [(.enOut, !s.cfg.enActive)]
    dir := .stopped
    inc := if s.cfg.strategy = .a then 0 else s.inc
    tps := if s.cfg.strategy = .b then 2 ^ s.cfg.wt - 1 else s.tps
    dtotal := if s.cfg.strategy = .b then 1 else s.dtotal
    dlong := if s.cfg.strategy = .b then 0 else s.dlong
    dcount := if s.cfg.strategy = .b then 0 else s.dcount }

/-- R106 and R102: `GETVEL` and `GETPOS` write `RESULT` and nothing else. -/
def Obligations.GetvelGetposResult : Prop :=
  opcode .getvel = 0x11 ∧ issuer .getvel = .host ∧ opcode .getpos = 0x22 ∧ issuer .getpos = .host ∧
  ∀ s : State, exec .getvel s = .next { s with result := s.vel } ∧ exec .getpos s = .next { s with result := s.pos }

/-- R103: `GETPOSD` writes to `RESULT` alone the position as an `FX` code, rounded half away from zero and saturated to
32 bits. -/
def Obligations.GetposdResult : Prop :=
  opcode .getposd = 0x23 ∧ issuer .getposd = .host ∧
  ∀ s : State, exec .getposd s = .next { s with
    result :=
      let q : ℚ := s.pos.toInt * 65536 / s.cfg.spd
      let rounded : ℤ := if 0 ≤ q then ⌊q + 1 / 2⌋ else -⌊-q + 1 / 2⌋
      BitVec.ofInt 32 (min (max rounded (-2147483648)) 2147483647) }

/-- R99 and R100: `SETPOS` overwrites `POS` with its operand and clears the sub-step state of the strategy; nothing else
changes and no port is written. -/
def Obligations.SetposResult : Prop :=
  opcode (.setpos 0) = 0x20 ∧
  ∀ (s : State) (opd : Word), issuer (.setpos opd) = .host ∧ exec (.setpos opd) s = .next { s with
    pos := opd
    acc := if s.cfg.strategy = .a then 0 else s.acc
    tcnt := if s.cfg.strategy = .b then 0 else s.tcnt
    dcount := if s.cfg.strategy = .b then 0 else s.dcount }

/-- R101: `SETPOSD` overwrites `POS` with the steps nearest to the distance, halves away from zero, saturated to 32 bits,
and clears the sub-step state as `SETPOS` does. -/
def Obligations.SetposdResult : Prop :=
  opcode (.setposd 0) = 0x21 ∧
  ∀ (s : State) (opd : Word), issuer (.setposd opd) = .host ∧ exec (.setposd opd) s = .next { s with
    pos :=
      let q : ℚ := opd.toInt / 65536 * s.cfg.spd
      let rounded : ℤ := if 0 ≤ q then ⌊q + 1 / 2⌋ else -⌊-q + 1 / 2⌋
      BitVec.ofInt 32 (min (max rounded (-2147483648)) 2147483647)
    acc := if s.cfg.strategy = .a then 0 else s.acc
    tcnt := if s.cfg.strategy = .b then 0 else s.tcnt
    dcount := if s.cfg.strategy = .b then 0 else s.dcount }

/-- The legal ranges of R7, as R8 asks for them, written out apart from `legalConfig`. -/
def Sys2Proof.LegalRanges (c : Config) : Prop :=
  c.tickRateHz ≠ 0 ∧ 0 < c.spd ∧ c.u ≠ 0 ∧ c.kB ∈ [4, 5, 6, 7, 8] ∧ 0 < c.vStop ∧
  (0 < c.eps ∧ c.eps * 8 ≤ 1 ∧ c.eps⁻¹ ≤ 2 ^ c.wt - 2) ∧ 2 ≤ c.n ∧ 8 ≤ c.wt ∧ c.aw ≠ 0

/-- R124: the whole effect of `CONSTRUCT` with a well-formed configuration, every register of the configured strategy at
its reset value, the three ports written in their order, `REFUSED` kept. The limits are those of R60 and R61. -/
def Obligations.ConstructResult : Prop :=
  opcode .construct = 0x01 ∧ issuer .construct = .host ∧
  ∀ s : State, LegalRanges s.cfgIn →
    let c := s.cfgIn
    let maxV : ℚ := c.tickRateHz * c.u / ((if c.strategy = .a then 2 else (c.kB : ℚ)) * c.spd)
    exec .construct s = .next { s with
      cfg := c
      maxV := maxV
      maxCode := min ⌊maxV * 65536⌋ 2147483647
      built := true
      enabled := false
      dir := .stopped
      vel := 0
      pos := 0
      result := 0
      inc := if c.strategy = .a then 0 else s.inc
      acc := if c.strategy = .a then 0 else s.acc
      tps := if c.strategy = .b then 2 ^ c.wt - 1 else s.tps
      dtotal := if c.strategy = .b then 1 else s.dtotal
      dlong := if c.strategy = .b then 0 else s.dlong
      dcount := if c.strategy = .b then 0 else s.dcount
      tcnt := if c.strategy = .b then 0 else s.tcnt
      pulse := false
      dirlvl := false
      enlvl := !c.enActive
      outlog := s.outlog ++ [(.stepOut, false), (.dirOut, false), (.enOut, !c.enActive)] }

/-- R8 and R113: `CONSTRUCT` with a configuration that breaks a range of R7 is refused and leaves the previous state,
`BUILT` included; `spd = 0` is such a configuration. That the reason is recorded in `lastRefusal` is the model's choice
(notes/assumptions/2.md). -/
def Obligations.IllFormedConfigRefused : Prop :=
  (∀ s : State, ¬ LegalRanges s.cfgIn →
    exec .construct s = .next { s with refused := true, lastRefusal := some .illFormedConfig }) ∧
  (∀ c : Config, c.spd = 0 → ¬ LegalRanges c)

/-- R62: the code `SETVEL` works with, its operand clamped to `±MAXCODE`. -/
def Sys2Proof.clampedCode (s : State) (opd : Word) : ℤ := min (max opd.toInt (-s.maxCode)) s.maxCode

/-- R62: the magnitude of that code in distance units per time unit. -/
def Sys2Proof.clampedMagnitude (s : State) (opd : Word) : ℚ := |clampedCode s opd| / 65536

/-- R63 and R65: `SETVEL` while disabled, or below the threshold, stores the clamped code and leaves the motor Stopped
with the sentinel; no port is written. The reserved direction is in `SetvelRefusesReservedDirection`. -/
def Obligations.SetvelStoppedResult : Prop :=
  ∀ (s : State) (opd : Word), s.dir ≠ .reserved →
    (s.enabled = false ∨ clampedMagnitude s opd < s.cfg.vStop) →
    exec (.setvel opd) s = .next { s with
      vel := BitVec.ofInt 32 (clampedCode s opd)
      dir := .stopped
      inc := if s.cfg.strategy = .a then 0 else s.inc
      tps := if s.cfg.strategy = .b then 2 ^ s.cfg.wt - 1 else s.tps
      dtotal := if s.cfg.strategy = .b then 1 else s.dtotal
      dlong := if s.cfg.strategy = .b then 0 else s.dlong
      dcount := if s.cfg.strategy = .b then 0 else s.dcount }

/-- R64: the direction a code gives when the result is not Stopped. -/
def Sys2Proof.directionOf (c : ℤ) : Dir := if c > 0 then .positive else .negative

/-- R78: the direction-output level a code requires. -/
def Sys2Proof.requiredLevel (s : State) (c : ℤ) : Level := if c > 0 then s.cfg.dPol else !s.cfg.dPol

/-- R78: what is appended to the output trace, one event on a change of the required level and none otherwise. -/
def Sys2Proof.directionEvents (s : State) (c : ℤ) : List (Port × Level) :=
  if requiredLevel s c = s.dirlvl then [] else [(.dirOut, requiredLevel s c)]

/-- R64, R66, R78 and R79 under strategy A: `SETVEL` at or above the threshold while enabled sets the direction, writes
the direction output only on a change, sets `INC = round(2^(N−1) · a / MAXV_A)`, and leaves `ACC` as it was. -/
def Obligations.SetvelPhaseResult : Prop :=
  ∀ (s : State) (opd : Word), s.dir ≠ .reserved → s.cfg.strategy = .a → s.enabled = true →
    s.cfg.vStop ≤ clampedMagnitude s opd →
    let maxV : ℚ := s.cfg.tickRateHz * s.cfg.u / (2 * s.cfg.spd)
    exec (.setvel opd) s = .next { s with
      vel := BitVec.ofInt 32 (clampedCode s opd)
      dir := directionOf (clampedCode s opd)
      dirlvl := requiredLevel s (clampedCode s opd)
      outlog := s.outlog ++ directionEvents s (clampedCode s opd)
      inc := ⌊2 ^ (s.cfg.n - 1) * clampedMagnitude s opd / maxV + 1 / 2⌋.toNat }

/-- R69 to R74, R78 and R79 under strategy B: `SETVEL` at or above the threshold while enabled sets the direction, writes
the direction output only on a change, computes the interval and its dither schedule from the ideal interval, and
reduces `DCOUNT` modulo the new `DTOTAL`; `TCNT` stays. -/
def Obligations.SetvelIntervalResult : Prop :=
  ∀ (s : State) (opd : Word), s.dir ≠ .reserved → s.cfg.strategy = .b → s.enabled = true →
    s.cfg.vStop ≤ clampedMagnitude s opd →
    let ideal : ℚ := s.cfg.tickRateHz * s.cfg.u / (clampedMagnitude s opd * s.cfg.spd)
    let cycle (addend : ℚ) : ℕ := (max 1 ⌊1 / (addend + s.cfg.eps) + 1 / 2⌋).toNat
    let off : ℚ := ideal - ⌊ideal⌋
    let dtotal : ℕ :=
      if 2 ^ s.cfg.wt - 2 < ⌊ideal⌋ then 1 else if off < 1 / 2 then cycle off else cycle (1 - off)
    exec (.setvel opd) s = .next { s with
      vel := BitVec.ofInt 32 (clampedCode s opd)
      dir := directionOf (clampedCode s opd)
      dirlvl := requiredLevel s (clampedCode s opd)
      outlog := s.outlog ++ directionEvents s (clampedCode s opd)
      tps := if 2 ^ s.cfg.wt - 2 < ⌊ideal⌋ then 2 ^ s.cfg.wt - 2 else ⌊ideal⌋.toNat
      dtotal := dtotal
      dlong := if 2 ^ s.cfg.wt - 2 < ⌊ideal⌋ then 0 else if off < 1 / 2 then 1 else dtotal - 1
      dcount := s.dcount % dtotal }

/-- R82: what the lowering phase of a tick appends to the output trace. -/
def Sys2Proof.loweringEvents (s : State) : List (Port × Level) := if s.pulse then [(.stepOut, false)] else []

/-- R82 and R83: the whole effect of a Stopped tick. -/
def Obligations.TickStoppedResult : Prop :=
  opcode .tick = 0x30 ∧ issuer .tick = .ticksrc ∧
  ∀ s : State, s.dir = .stopped → exec .tick s = .next { s with
    pulse := false
    outlog := s.outlog ++ loweringEvents s
    tcnt := if s.cfg.strategy = .b then 0 else s.tcnt }

/-- R82, R84, R86 and R87 under strategy A: the whole effect of a tick that is not Stopped. It lowers a high pulse; it
advances the accumulator; a wrap fires a step in the tick's direction, but on a tick that began with the pulse high,
where it is deferred and the accumulator held. -/
def Obligations.TickPhaseResult : Prop :=
  ∀ (s : State) (up : Bool), s.cfg.strategy = .a → s.dir = (if up then .positive else .negative) →
    let moved : ℤ := (if up then (s.acc : ℤ) + s.inc else (s.acc : ℤ) - s.inc) % 2 ^ s.cfg.n
    let wraps : Prop := if up then moved < s.acc else (s.acc : ℤ) < moved
    (wraps → s.pulse = true → exec .tick s = .next { s with
      pulse := false
      outlog := s.outlog ++ [(.stepOut, false)] }) ∧
    (wraps → s.pulse = false → exec .tick s = .next { s with
      acc := moved.toNat
      pulse := true
      outlog := s.outlog ++ [(.stepOut, true)]
      pos := if up then s.pos + 1 else s.pos - 1 }) ∧
    (¬ wraps → exec .tick s = .next { s with
      acc := moved.toNat
      pulse := false
      outlog := s.outlog ++ loweringEvents s })

/-- R82, R85, R86 and R87 under strategy B: the whole effect of a tick that is not Stopped. It lowers a high pulse; the
counter advances, saturating; at the target of the current interval a step fires and the dither position moves on, but on
a tick that began with the pulse high, which only stores the count. -/
def Obligations.TickCountResult : Prop :=
  ∀ (s : State) (up : Bool), s.cfg.strategy = .b → s.dir = (if up then .positive else .negative) →
    let t : ℕ := min (s.tcnt + 1) (2 ^ s.cfg.wt - 1)
    let goal : ℕ := if s.dcount < s.dlong then s.tps + 1 else s.tps
    (goal ≤ t → s.pulse = false → exec .tick s = .next { s with
      tcnt := 0
      dcount := (s.dcount + 1) % s.dtotal
      pulse := true
      outlog := s.outlog ++ [(.stepOut, true)]
      pos := if up then s.pos + 1 else s.pos - 1 }) ∧
    ((t < goal ∨ s.pulse = true) → exec .tick s = .next { s with
      tcnt := t
      pulse := false
      outlog := s.outlog ++ loweringEvents s })

/-- R20 and R112: a tick that finds `DIR = 3` is refused, the high pulse not even lowered. That the reason is recorded in
`lastRefusal` is the model's choice (notes/assumptions/2.md). -/
def Obligations.TickRefusesReservedDirection : Prop :=
  ∀ s : State, s.dir.code = 3 →
    exec .tick s = .next { s with refused := true, lastRefusal := some .reservedDirection }

/-- R18, R20 and R112: `SETVEL`, which R18 names a reader of `DIR`, refuses the reserved direction like a tick, for every
operand. That its pseudocode (R77) shows no such check, and that the reason is recorded in `lastRefusal`, are
notes/assumptions/9.md and 2.md. -/
def Obligations.SetvelRefusesReservedDirection : Prop :=
  ∀ (s : State) (opd : Word), s.dir.code = 3 →
    exec (.setvel opd) s = .next { s with refused := true, lastRefusal := some .reservedDirection }

/-! ## What may change what -/

/-- The commands that write the direction and the TimingParameter (R42). -/
def Sys2Proof.setsRate : Instr → Bool
  | .setvel _ => true
  | .enable => true
  | .disable => true
  | .construct => true
  | .getvel => false
  | .setpos _ => false
  | .setposd _ => false
  | .getpos => false
  | .getposd => false
  | .tick => false

/-- R42 and R18: each register is written only by the commands the tables name for it, `CONSTRUCT` always among them
(R124); the commands still to come and the side input are written by none. -/
def Obligations.WritersOfEachRegister : Prop :=
  ∀ (i : Instr) (s t : State), exec i s = .next t →
    (t.pending = s.pending ∧ t.cfgIn = s.cfgIn) ∧
    (i ≠ .construct → t.cfg = s.cfg ∧ t.maxV = s.maxV ∧ t.maxCode = s.maxCode ∧ t.built = s.built) ∧
    (setsRate i = false → t.dir = s.dir ∧ t.inc = s.inc ∧ t.tps = s.tps ∧ t.dtotal = s.dtotal ∧ t.dlong = s.dlong) ∧
    (setsRate i = false → overwritesPosition i = false → i ≠ .tick → t.dcount = s.dcount) ∧
    (overwritesPosition i = false → i ≠ .tick → t.acc = s.acc ∧ t.tcnt = s.tcnt ∧ t.pos = s.pos) ∧
    (i ∉ [.tick, .disable, .construct] → t.pulse = s.pulse) ∧
    ((∀ opd, i ≠ .setvel opd) → i ≠ .construct → t.vel = s.vel ∧ t.dirlvl = s.dirlvl) ∧
    (i ∉ [.enable, .disable, .construct] → t.enabled = s.enabled ∧ t.enlvl = s.enlvl) ∧
    (i ∉ [.getvel, .getpos, .getposd, .construct] → t.result = s.result) ∧
    ((∀ opd, i ≠ .setvel opd) → i ∉ [.tick, .construct] → t.refused = s.refused ∧ t.lastRefusal = s.lastRefusal) ∧
    (s.dir ≠ .reserved → i ≠ .construct → t.refused = s.refused ∧ t.lastRefusal = s.lastRefusal) ∧
    ((overwritesPosition i = true ∧ i ≠ .construct ∨ i ∈ [.getvel, .getpos, .getposd]) → t.outlog = s.outlog)

/-- R35: no rule reads a register that is absent under the configured strategy. Two states that differ in such registers
alone lead, by any command, to states that again differ in such registers alone, and are refused alike. -/
def Obligations.AbsentRegistersUnread : Prop :=
  ∀ (i : Instr) (s t s' t' : State), withoutAbsent s = withoutAbsent t → exec i s = .next s' → exec i t = .next t' →
    withoutAbsent s' = withoutAbsent t'

/-- R35: a rule that writes a register absent under the configured strategy does nothing to it. -/
def Obligations.AbsentRegistersUnwritten : Prop :=
  ∀ (i : Instr) (s t : State), exec i s = .next t →
    (t.cfg.strategy = .a → t.tps = s.tps ∧ t.dtotal = s.dtotal ∧ t.dlong = s.dlong ∧ t.dcount = s.dcount ∧
      t.tcnt = s.tcnt) ∧
    (t.cfg.strategy = .b → t.inc = s.inc ∧ t.acc = s.acc)

/-! ## Invariants -/

/-- R21: a disabled block is Stopped. Every step keeps it, and `CONSTRUCT` (with a well-formed configuration), `ENABLE` and
`DISABLE` each leave Stopped from any state; `SETVEL` leaves another direction only when enabled, but for the reserved
one, which it refuses and does not write. -/
def Obligations.DisabledIsStopped : Prop :=
  (∀ s t : State, (s.enabled = false → s.dir = .stopped) → step s = .next t → t.enabled = false → t.dir = .stopped) ∧
  (∀ s t : State, LegalRanges s.cfgIn → exec .construct s = .next t → t.dir = .stopped) ∧
  (∀ s t : State, (exec .enable s = .next t ∨ exec .disable s = .next t) → t.dir = .stopped) ∧
  (∀ (s t : State) (opd : Word), exec (.setvel opd) s = .next t → t.dir ≠ .stopped →
    s.enabled = true ∨ (s.dir = .reserved ∧ t.dir = s.dir))

/-- The headline invariant: every step keeps `Inv` (Safety.lean), whatever command is presented, by whom, and with what
configuration. The clause of `Inv` that `REFUSED` and `lastRefusal` go together is about the model's own field, the
model's choice (DESIGN CHOICE, notes/assumptions/2.md); the rules give the others. -/
def Obligations.StepKeepsInv : Prop :=
  ∀ s t : State, Inv s → step s = .next t → Inv t

/-- `Inv` holds before the first `CONSTRUCT`. What the registers hold there is the model's choice
(notes/assumptions/4.md), and `Inv` says nothing of them while `BUILT = 0`; that the choice would meet it once `BUILT = 1`,
but for the trace that no port has been written, is the second clause. -/
def Obligations.ResetMeetsInv : Prop :=
  Inv State.reset ∧
  ConfigInv State.reset ∧ ControlInv State.reset ∧ PhaseInv State.reset ∧ IntervalInv State.reset

/-! ## The rate converter -/

/-- R62: a code within `±MAXCODE` is taken as it is, one beyond it is clamped to the bound, and under a well-formed
configuration the magnitude never exceeds `MAXV`. -/
def Obligations.VelocityIsClamped : Prop :=
  ∀ (c : Config) (opd : Word), LegalRanges c →
    let m := maxCodeOf (maxVOf c)
    (-m ≤ opd.toInt ∧ opd.toInt ≤ m → clampVelocity m opd = opd.toInt) ∧
    (m < opd.toInt → clampVelocity m opd = m) ∧ (opd.toInt < -m → clampVelocity m opd = -m) ∧
    magnitude (clampVelocity m opd) = |(clampVelocity m opd : ℚ)| / 65536 ∧
    magnitude (clampVelocity m opd) ≤ maxVOf c

/-- R66 and R67: the increment equals `round(2^N · a · spd / (tickRateHz · U))`, and for a magnitude up to `MAXV_A` it is
at most `2^(N−1)`. -/
def Obligations.IncrementIsStepsPerTick : Prop :=
  ∀ (c : Config) (a : ℚ), LegalRanges c → 0 ≤ a →
    (phaseIncrement c a : ℤ) = ⌊2 ^ c.n * a * c.spd / (c.tickRateHz * c.u) + 1 / 2⌋ ∧
    (a ≤ maxVA c → phaseIncrement c a ≤ 2 ^ (c.n - 1))

/-- R68: the increment is within one half of the exact rate `x = 2^N · a · spd / (tickRateHz · U)`, and where `INC · x` is
at least `2^(N−1)` the long-run interval `2^N / INC` is within one tick of the exact one. -/
def Obligations.IncrementRateError : Prop :=
  ∀ (c : Config) (a : ℚ), LegalRanges c → 0 < a →
    let x : ℚ := 2 ^ c.n * a * c.spd / (c.tickRateHz * c.u)
    let inc : ℚ := phaseIncrement c a
    |inc - x| ≤ 1 / 2 ∧ (0 < inc → |2 ^ c.n / inc - 2 ^ c.n / x| ≤ 2 ^ (c.n - 1) / (inc * x)) ∧
    (2 ^ (c.n - 1) ≤ inc * x → |2 ^ c.n / inc - 2 ^ c.n / x| ≤ 1)

/-- R70: for a magnitude up to `MAXV_B`, `TPS` is the floor of the ideal interval where that fits, and at least `K_B`. -/
def Obligations.IntervalAtLeastMinimum : Prop :=
  ∀ (c : Config) (a : ℚ), LegalRanges c → 0 < a → a ≤ maxVB c →
    (c.kB : ℚ) ≤ idealInterval c a ∧
    (⌊idealInterval c a⌋ ≤ 2 ^ c.wt - 2 → ((dither c a).1 : ℤ) = ⌊idealInterval c a⌋) ∧
    c.kB ≤ (dither c a).1 ∧ 4 ≤ (dither c a).1

/-- R75: the dither schedule of a result that is not Stopped. The cycle length is between 2 and `round(1/EPS)` when the
interval fits, and 1 when it is saturated; there are at most `DTOTAL` long intervals; the average over a cycle,
`TPS + DLONG / DTOTAL`, is within one half tick of the ideal, and each interval within one tick, strictly but for a long
interval of an integral ideal (the last two when the interval is not saturated). -/
def Obligations.DitherSchedule : Prop :=
  ∀ (c : Config) (a : ℚ), LegalRanges c → 0 < a → a ≤ maxVB c →
    let ideal := idealInterval c a
    let tps := (dither c a).1
    let dtotal := (dither c a).2.1
    let dlong := (dither c a).2.2
    dlong ≤ dtotal ∧
    ((dtotal - dlong : ℕ) * (tps : ℚ) + dlong * (tps + 1 : ℚ)) / dtotal = tps + (dlong : ℚ) / dtotal ∧
    (2 ^ c.wt - 2 < ⌊ideal⌋ → dtotal = 1) ∧
    (⌊ideal⌋ ≤ 2 ^ c.wt - 2 →
      2 ≤ dtotal ∧ (dtotal : ℤ) ≤ ⌊1 / c.eps + 1 / 2⌋ ∧
      |tps + (dlong : ℚ) / dtotal - ideal| < 1 / 2 ∧
      |(tps : ℚ) - ideal| < 1 ∧ |(tps : ℚ) + 1 - ideal| ≤ 1 ∧
      ((tps : ℚ) ≠ ideal → |(tps : ℚ) + 1 - ideal| < 1))

/-! ## The scheduler over one tick -/

/-- R88: a tick changes `POS` by at most one step and emits at most one rising edge; it emits one exactly when it changes
`POS`, and the step has the sign of `DIR`. -/
def Obligations.OneStepPerTick : Prop :=
  ∀ s t : State, exec .tick s = .next t →
    (t.pos = s.pos ∨ t.pos = BitVec.ofInt 32 (s.pos.toInt + stepSign s.dir)) ∧
    risingEdges t.outlog ≤ risingEdges s.outlog + 1 ∧
    (risingEdges t.outlog = risingEdges s.outlog + 1 ↔ t.pos ≠ s.pos) ∧
    (t.pos ≠ s.pos → s.dir = .positive ∨ s.dir = .negative)

/-- R89: a tick that finds the pulse high lowers it and fires nothing, so a pulse lasts one tick and of two ticks in a row
at most one fires; `DISABLE` lowers it at once. Ticks of a block whose `DIR` is one of its three values, where the rule
is about lowering. -/
def Obligations.PulseLastsOneTick : Prop :=
  (∀ s t : State, s.dir ≠ .reserved → s.pulse = true → exec .tick s = .next t →
    t.pulse = false ∧ t.outlog = s.outlog ++ [(.stepOut, false)] ∧ t.pos = s.pos) ∧
  (∀ s t : State, exec .tick s = .next t → t.pulse = true → s.dir ≠ .reserved →
    s.pulse = false ∧ t.outlog = s.outlog ++ [(.stepOut, true)]) ∧
  (∀ s t u : State, exec .tick s = .next t → exec .tick t = .next u →
    risingEdges u.outlog ≤ risingEdges s.outlog + 1) ∧
  (∀ s t : State, s.pulse = true → exec .disable s = .next t →
    t.pulse = false ∧ (s.outlog ++ [(.stepOut, false)]) <+: t.outlog)

/-- R95: while `DIR` is Positive a tick never decreases `POS`, and while it is Negative never increases it; the wrap at the
ends of the range is the only exception. -/
def Obligations.PositionIsMonotonic : Prop :=
  ∀ s t : State, exec .tick s = .next t →
    (s.dir = .positive → s.pos.toInt ≤ t.pos.toInt ∨ s.pos.toInt = 2147483647 ∧ t.pos.toInt = -2147483648) ∧
    (s.dir = .negative → t.pos.toInt ≤ s.pos.toInt ∨ s.pos.toInt = -2147483648 ∧ t.pos.toInt = 2147483647)

/-- R91, strategy A, away from the wrap of `POS`: a tick that is neither Stopped nor deferred moves the fractional
position by exactly `±INC / 2^N`; a Stopped or deferred tick leaves it. After `SETPOS n` in the Negative direction the
first tick with the pulse low and `INC > 0` fires the step to `n − 1`. -/
def Obligations.FractionalPositionMoves : Prop :=
  (∀ s t : State, s.cfg.strategy = .a → s.inc < 2 ^ s.cfg.n → s.acc < 2 ^ s.cfg.n →
    -2147483648 < s.pos.toInt → s.pos.toInt < 2147483647 → exec .tick s = .next t →
    (s.dir = .positive → fractionalPosition t = fractionalPosition s + s.inc / 2 ^ s.cfg.n ∨
      s.pulse = true ∧ 2 ^ s.cfg.n ≤ s.acc + s.inc ∧ fractionalPosition t = fractionalPosition s) ∧
    (s.dir = .negative → fractionalPosition t = fractionalPosition s - s.inc / 2 ^ s.cfg.n ∨
      s.pulse = true ∧ s.acc < s.inc ∧ fractionalPosition t = fractionalPosition s) ∧
    (s.dir = .stopped → fractionalPosition t = fractionalPosition s)) ∧
  (∀ (s t u : State) (n : Word), s.cfg.strategy = .a → s.dir = .negative → s.pulse = false → 0 < s.inc →
    s.inc < 2 ^ s.cfg.n → exec (.setpos n) s = .next t → exec .tick t = .next u → u.pos = n - 1 ∧ u.pulse = true)

/-! ## The scheduler over many ticks -/

/-- R92: under strategy A no deferral follows a step without a reversal or an overwrite of the position. From a state of
the invariant, a tick that fires, then any commands but `TICK`, `CONSTRUCT` and the position overwrites that leave the
direction what it was: the next tick, if the block still runs, advances the accumulator without a wrap. -/
def Obligations.NoDeferralWithoutReversal : Prop :=
  ∀ (s t u v : State) (between : List Instr),
    Inv s → s.built = true → s.cfg.strategy = .a → s.dir ≠ .stopped →
    exec .tick s = .next t → t.pulse = true →
    (∀ i ∈ between, i ≠ .tick ∧ overwritesPosition i = false) → execAll between t = .next u → u.dir = s.dir →
    exec .tick u = .next v →
    v.pos = u.pos ∧ (s.dir = .positive → v.acc = u.acc + u.inc) ∧ (s.dir = .negative → v.acc + u.inc = u.acc)

/-- R87: the first of the coming ticks is deferred, as a tick that begins with the pulse high and would wrap. -/
def Sys2Proof.firstTickDefers (s : State) : Bool :=
  s.pulse && (if s.dir = .positive then decide (2 ^ s.cfg.n ≤ s.acc + s.inc) else decide (s.acc < s.inc))

/-- R93 in closed form. Under strategy A, from a state of the invariant that runs, `k` ticks leave the running phase
`ACC ± k · INC`: the accumulator is that phase modulo `2^N`, and the position has moved by the multiples of `2^N` it
crossed, none of them lost. Where the first tick is deferred (R87) the phase is that of one tick fewer. -/
def Obligations.PhaseTicksClosedForm : Prop :=
  ∀ (s : State) (k : ℕ), Inv s → s.built = true → s.cfg.strategy = .a → s.dir ≠ .stopped →
    let counted : ℕ := if firstTickDefers s then k - 1 else k
    let phase : ℤ := s.acc + counted * (stepSign s.dir * s.inc)
    ∃ t, execAll (ticks k) s = .next t ∧
      (t.acc : ℤ) = phase % 2 ^ s.cfg.n ∧
      t.pos = BitVec.ofInt 32 (s.pos.toInt + phase / 2 ^ s.cfg.n) ∧
      (risingEdges t.outlog : ℤ) = risingEdges s.outlog + |phase / 2 ^ s.cfg.n|

/-- R94: one interval of strategy B. From a state of the invariant that runs with `TCNT = 0`, no tick before the last of
the interval fires, and the tick that ends it does; the interval is `TPS + 1` ticks when `DCOUNT < DLONG`, else `TPS`. -/
def Obligations.IntervalLength : Prop :=
  ∀ s : State, Inv s → s.built = true → s.cfg.strategy = .b → s.dir ≠ .stopped → s.tcnt = 0 →
    let length : ℕ := if s.dcount < s.dlong then s.tps + 1 else s.tps
    (∀ k < length, ∃ t, execAll (ticks k) s = .next t ∧ t.tcnt = k ∧ t.pos = s.pos ∧ t.dcount = s.dcount ∧
      risingEdges t.outlog = risingEdges s.outlog) ∧
    (∃ t, execAll (ticks length) s = .next t ∧ t.tcnt = 0 ∧ t.pulse = true ∧
      t.dcount = (s.dcount + 1) % s.dtotal ∧ t.pos = BitVec.ofInt 32 (s.pos.toInt + stepSign s.dir) ∧
      risingEdges t.outlog = risingEdges s.outlog + 1)

/-- R94 and R75: a whole dither cycle of strategy B, from its start, takes `DTOTAL · TPS + DLONG` ticks, makes `DTOTAL`
steps in the direction of `DIR`, and comes back to its start. -/
def Obligations.DitherCycleLength : Prop :=
  ∀ s : State, Inv s → s.built = true → s.cfg.strategy = .b → s.dir ≠ .stopped → s.tcnt = 0 → s.dcount = 0 →
    ∃ t, execAll (ticks (s.dtotal * s.tps + s.dlong)) s = .next t ∧
      t.pos = BitVec.ofInt 32 (s.pos.toInt + stepSign s.dir * s.dtotal) ∧
      risingEdges t.outlog = risingEdges s.outlog + s.dtotal ∧
      t.tcnt = 0 ∧ t.dcount = 0 ∧ t.tps = s.tps ∧ t.dtotal = s.dtotal ∧ t.dlong = s.dlong ∧ t.dir = s.dir

/-- R133: under strategy B the rising edges are at least `K_B` ticks apart, whatever commands other than `CONSTRUCT` run
between. From a state of the invariant in which a step has just fired (`TCNT = 0`), commands with fewer than `K_B` ticks
among them fire no step. -/
def Obligations.EdgesAtLeastMinimumApart : Prop :=
  ∀ (s t : State) (is : List Instr), Inv s → s.built = true → s.cfg.strategy = .b → s.tcnt = 0 →
    .construct ∉ is → is.count .tick < s.cfg.kB → execAll is s = .next t →
    risingEdges t.outlog = risingEdges s.outlog

/-- R133, R96 and R89: two rising edges are at least two ticks apart, because a tick that starts high cannot fire (R87). Under
either strategy: with the pulse high, as a tick that fires leaves it, any commands that do not lower it (`TICK`, `DISABLE`
and `CONSTRUCT` do), and then a tick: no step. Across a `DISABLE` too, where the position is not overwritten and, under
strategy A, the direction is the same again (R92 and, under strategy B, R85). -/
def Obligations.EdgesTwoTicksApart : Prop :=
  (∀ (s t u : State) (between : List Instr), s.pulse = true → (∀ i ∈ between, i ∉ [.tick, .disable, .construct]) →
    execAll between s = .next t → exec .tick t = .next u → risingEdges u.outlog = risingEdges s.outlog) ∧
  (∀ (s t u v : State) (between : List Instr), Inv s → s.built = true → exec .tick s = .next t → t.pulse = true →
    (∀ i ∈ between, i ≠ .tick ∧ overwritesPosition i = false) → execAll between t = .next u →
    (s.cfg.strategy = .a → u.dir = s.dir) → exec .tick u = .next v → risingEdges v.outlog = risingEdges t.outlog)

/-- R133, R96 and R89 over a whole run, under either strategy and whatever else runs between the ticks: in a run whose pulses end
on ticks, `k` ticks fire at most `(k + 1) / 2` steps: twice the steps is at most `k`, and 1 more if the run ends with the
pulse high, 1 less if it starts so. That is the spacing of two ticks, for every stretch of such a run is such a run. -/
def Obligations.AtMostOneStepPerTwoTicks : Prop :=
  ∀ (s t : State) (is : List Instr), pulsesEndOnTicks is s → execAll is s = .next t →
    2 * risingEdges t.outlog + (if s.pulse then 1 else 0) ≤
      2 * risingEdges s.outlog + is.count .tick + (if t.pulse then 1 else 0)

/-- The model's reading, DEDUCED in notes/assumptions/16.md, against the words of R89, R96 and R133 that two rising
edges are at least two ticks apart: R108 and R124 lower the pulse between two ticks, and by R84 and R87 a tick that does not start high
fires when it wraps. So under strategy A two ticks with only other commands between may both fire, in each of the log's
three cases: after `DISABLE` a reversal; after `DISABLE` an overwrite of the position and a Negative velocity; after
`CONSTRUCT` a Negative velocity. Each is an instance, from one state of the invariant that runs Negative. -/
def Obligations.AdjacentEdgesAfterLoweredPulse : Prop :=
  ∃ s : State, Inv s ∧ s.built = true ∧ s.cfg.strategy = .a ∧
    ∀ between ∈ [[Instr.disable, .enable, .setvel 0x007D0000], [.disable, .setpos 3, .enable, .setvel 0xFF830000],
      [.disable, .setposd 0, .enable, .setvel 0xFF830000], [.construct, .enable, .setvel 0xFF830000]],
    ∃ t, execAll (.tick :: between ++ [.tick]) s = .next t ∧ risingEdges t.outlog = risingEdges s.outlog + 2

/-- R90: over any run that does not overwrite the position store, `POS` moves by the rising edges fired with
`DIR = Positive` less those fired with `DIR = Negative`, modulo `2^32`. -/
def Obligations.PositionCountsEdges : Prop :=
  ∀ (s t : State) (is : List Instr), (∀ i ∈ is, overwritesPosition i = false) → execAll is s = .next t →
    t.pos = BitVec.ofInt 32 (s.pos.toInt + signedEdges is s)

/-! ## Control over many commands -/

/-- R80: a `SETVEL` that yields Stopped prevents any rising edge from the first following tick on. A pulse already high is
lowered by that tick, a falling edge and not a new pulse; the ticks after it write no port. -/
def Obligations.StopTakesEffectNextTick : Prop :=
  ∀ (s t u : State) (opd : Word) (k : ℕ), exec (.setvel opd) s = .next t → t.dir = .stopped →
    execAll (ticks (k + 1)) t = .next u →
    u.pos = s.pos ∧ u.pulse = false ∧ u.dir = .stopped ∧
    u.outlog = s.outlog ++ (if s.pulse then [(.stepOut, false)] else [])

/-- R109: from a `DISABLE` until the next `ENABLE`, whatever other commands run, no `TICK` and no `SETVEL` changes `POS` or
appends to `OUTLOG`; `SETVEL` there writes only `VEL`, and a tick only `TCNT`. -/
def Obligations.DisabledBlockIsSilent : Prop :=
  ∀ (s t u : State) (is : List Instr), exec .disable s = .next t → .enable ∉ is → execAll is t = .next u →
    (∀ v, exec .tick u = .next v →
      v = { u with tcnt := if u.cfg.strategy = .b then 0 else u.tcnt } ∧ v.pos = u.pos ∧ v.outlog = u.outlog) ∧
    (∀ (opd : Word) (v : State), exec (.setvel opd) u = .next v →
      v = { u with vel := BitVec.ofInt 32 (clampedCode u opd) } ∧ v.pos = u.pos ∧ v.outlog = u.outlog)

/-- No `SETVEL` of a run reaches the threshold `V_STOP` at the state it runs in (R110). -/
def Sys2Proof.staysBelowThreshold : List Instr → State → Prop
  | [], _ => True
  | i :: later, s =>
    (∀ opd, i = .setvel opd → clampedMagnitude s opd < s.cfg.vStop) ∧
    ∀ t, exec i s = .next t → staysBelowThreshold later t

/-- R110: after `ENABLE` the motor stays Stopped until a `SETVEL` whose clamped magnitude is at least `V_STOP`, whatever
else runs and whatever `VEL` holds. -/
def Obligations.EnableDoesNotReplay : Prop :=
  ∀ (s t u : State) (is : List Instr), exec .enable s = .next t → staysBelowThreshold is t →
    execAll is t = .next u → u.dir = .stopped ∧ risingEdges u.outlog = risingEdges s.outlog

/-- R125: after `CONSTRUCT` no step is emitted before an `ENABLE` has run, and none before a `SETVEL` of magnitude at least
`V_STOP` has run. -/
def Obligations.NoStepBeforeEnableAndVelocity : Prop :=
  ∀ (s t u : State) (is : List Instr), LegalRanges s.cfgIn → exec .construct s = .next t →
    (.enable ∉ is ∨ staysBelowThreshold is t) → execAll is t = .next u →
    u.dir = .stopped ∧ risingEdges u.outlog = risingEdges s.outlog

/-- R104: `SETPOS n` then `GETPOS` gives `RESULT = n` and emits nothing; with a tick that fires between them, `n ± 1`. -/
def Obligations.SetposThenGetpos : Prop :=
  (∀ (s : State) (n : Word), ∃ t, execAll [.setpos n, .getpos] s = .next t ∧ t.result = n ∧ t.outlog = s.outlog) ∧
  (∀ (s t u : State) (n : Word), execAll [.setpos n, .tick] s = .next t → risingEdges t.outlog ≠ risingEdges s.outlog →
    exec .getpos t = .next u → u.result = n + 1 ∨ u.result = n - 1)

/-- R105: `SETPOSD d` then `GETPOSD`, where neither conversion saturates, gives a distance within
`1 / (2 · spd) + 2^−17` of `d`, which is at most one step's distance when `spd ≤ 2^16`. -/
def Obligations.DistanceRoundTrip : Prop :=
  ∀ (s t : State) (opd : Word), 0 < s.cfg.spd → execAll [.setposd opd, .getposd] s = .next t →
    let n : ℤ := roundHA (val opd * s.cfg.spd)
    let code : ℤ := roundHA (n * 65536 / s.cfg.spd)
    n ≤ 2147483647 → -2147483648 ≤ n → code ≤ 2147483647 → -2147483648 ≤ code →
    |val t.result - val opd| ≤ 1 / (2 * s.cfg.spd) + 1 / 2 ^ 17 ∧
    (s.cfg.spd ≤ 2 ^ 16 → 1 / (2 * s.cfg.spd) + 1 / 2 ^ 17 ≤ 1 / s.cfg.spd)
end

