-- ==== Sys2Proof/Laws/Decode.lean ====
section
/-! SUPPORT. The two fields of a command word (R51), and how they come apart and together. -/

namespace Sys2Proof

@[simp] theorem opcOf_append (c : BitVec 8) (d : Word) : opcOf (c ++ d) = c := by
  ext i hi
  have h : (c ++ d).getLsbD (32 + i) = _ := BitVec.getLsbD_append
  simp [opcOf, BitVec.getElem_extractLsb', h, BitVec.getLsbD_eq_getElem, hi]

@[simp] theorem opdOf_append (c : BitVec 8) (d : Word) : opdOf (c ++ d) = d := by
  ext i hi
  have h : (c ++ d).getLsbD i = _ := BitVec.getLsbD_append
  simp [opdOf, BitVec.getElem_extractLsb', h, BitVec.getLsbD_eq_getElem, hi]

@[simp] theorem opc_append_opd (w : CommandWord) : opcOf w ++ opdOf w = w := by
  simp only [opcOf, opdOf]
  ext i hi
  rw [BitVec.getElem_append]
  split
  · simp [BitVec.getLsbD_eq_getElem, hi]
  · simp only [BitVec.getElem_extractLsb']
    rw [show 32 + (i - 32) = i by omega, BitVec.getLsbD_eq_getElem]

@[simp] theorem opcOf_encode (i : Instr) : opcOf (encode i) = opcode i := by simp [encode]

@[simp] theorem opdOf_encode (i : Instr) : opdOf (encode i) = operand i := by simp [encode]

theorem zFormat_ok {opd : Word} {i j : Instr} : zFormat opd i = .ok j ↔ opd = 0 ∧ i = j := by
  unfold zFormat; split <;> simp_all

theorem zFormat_error {opd : Word} {i : Instr} {r : RefusalReason} :
    zFormat opd i = .error r ↔ opd ≠ 0 ∧ r = .nonZeroOperand := by
  unfold zFormat
  split
  · simp [*]
  · simp only [*, Except.error.injEq, ne_eq, not_false_eq_true, true_and]; exact eq_comm

theorem tick_issuer_iff (i : Instr) : issuer i = .ticksrc ↔ i = .tick := by cases i <;> simp [issuer]

/-- The decoder's answer, once for every use: an error of the word's own, of its issuer, of its time, or a command. -/
theorem decode_ok_iff {w : CommandWord} {agent : Agent} {built : Bool} {i : Instr} :
    decode w agent built = .ok i ↔
      decodeWord w = .ok i ∧ issuer i = agent ∧ (built = true ∨ i = .construct) := by
  unfold decode
  rcases decodeWord w with r | j
  · simp
  · dsimp only
    split
    · rename_i h; simp; rintro rfl h'; exact absurd h' h
    · split <;> rename_i h1 h2
      · simp; rintro rfl _; simpa [and_comm] using h2
      · simp only [Except.ok.injEq]
        constructor
        · rintro rfl; refine ⟨rfl, not_not.mp h1, ?_⟩
          by_contra hc; push Not at hc; exact h2 ⟨by simpa using hc.1, hc.2⟩
        · exact fun h => h.1

end Sys2Proof
end

