-- ==== Sys2Proof/Laws/State.lean ====
section
/-! SUPPORT. The registers each shared operation leaves alone, one lemma per operation and register, for `simp`. What an
operation writes is said in Laws/Ops.lean. -/

namespace Sys2Proof.Machine

@[simp] theorem refuse_cfg (r : RefusalReason) (s : State) : (refuse r s).cfg = s.cfg := rfl
@[simp] theorem refuse_maxV (r : RefusalReason) (s : State) : (refuse r s).maxV = s.maxV := rfl
@[simp] theorem refuse_maxCode (r : RefusalReason) (s : State) : (refuse r s).maxCode = s.maxCode := rfl
@[simp] theorem refuse_built (r : RefusalReason) (s : State) : (refuse r s).built = s.built := rfl
@[simp] theorem refuse_enabled (r : RefusalReason) (s : State) : (refuse r s).enabled = s.enabled := rfl
@[simp] theorem refuse_dir (r : RefusalReason) (s : State) : (refuse r s).dir = s.dir := rfl
@[simp] theorem refuse_vel (r : RefusalReason) (s : State) : (refuse r s).vel = s.vel := rfl
@[simp] theorem refuse_inc (r : RefusalReason) (s : State) : (refuse r s).inc = s.inc := rfl
@[simp] theorem refuse_acc (r : RefusalReason) (s : State) : (refuse r s).acc = s.acc := rfl
@[simp] theorem refuse_tps (r : RefusalReason) (s : State) : (refuse r s).tps = s.tps := rfl
@[simp] theorem refuse_dtotal (r : RefusalReason) (s : State) : (refuse r s).dtotal = s.dtotal := rfl
@[simp] theorem refuse_dlong (r : RefusalReason) (s : State) : (refuse r s).dlong = s.dlong := rfl
@[simp] theorem refuse_dcount (r : RefusalReason) (s : State) : (refuse r s).dcount = s.dcount := rfl
@[simp] theorem refuse_tcnt (r : RefusalReason) (s : State) : (refuse r s).tcnt = s.tcnt := rfl
@[simp] theorem refuse_pos (r : RefusalReason) (s : State) : (refuse r s).pos = s.pos := rfl
@[simp] theorem refuse_pulse (r : RefusalReason) (s : State) : (refuse r s).pulse = s.pulse := rfl
@[simp] theorem refuse_dirlvl (r : RefusalReason) (s : State) : (refuse r s).dirlvl = s.dirlvl := rfl
@[simp] theorem refuse_enlvl (r : RefusalReason) (s : State) : (refuse r s).enlvl = s.enlvl := rfl
@[simp] theorem refuse_result (r : RefusalReason) (s : State) : (refuse r s).result = s.result := rfl
@[simp] theorem refuse_outlog (r : RefusalReason) (s : State) : (refuse r s).outlog = s.outlog := rfl
@[simp] theorem refuse_cfgIn (r : RefusalReason) (s : State) : (refuse r s).cfgIn = s.cfgIn := rfl
@[simp] theorem refuse_pending (r : RefusalReason) (s : State) : (refuse r s).pending = s.pending := rfl

@[simp] theorem out_cfg (p : Port) (l : Level) (s : State) : (out p l s).cfg = s.cfg := rfl
@[simp] theorem out_maxV (p : Port) (l : Level) (s : State) : (out p l s).maxV = s.maxV := rfl
@[simp] theorem out_maxCode (p : Port) (l : Level) (s : State) : (out p l s).maxCode = s.maxCode := rfl
@[simp] theorem out_built (p : Port) (l : Level) (s : State) : (out p l s).built = s.built := rfl
@[simp] theorem out_enabled (p : Port) (l : Level) (s : State) : (out p l s).enabled = s.enabled := rfl
@[simp] theorem out_dir (p : Port) (l : Level) (s : State) : (out p l s).dir = s.dir := rfl
@[simp] theorem out_vel (p : Port) (l : Level) (s : State) : (out p l s).vel = s.vel := rfl
@[simp] theorem out_inc (p : Port) (l : Level) (s : State) : (out p l s).inc = s.inc := rfl
@[simp] theorem out_acc (p : Port) (l : Level) (s : State) : (out p l s).acc = s.acc := rfl
@[simp] theorem out_tps (p : Port) (l : Level) (s : State) : (out p l s).tps = s.tps := rfl
@[simp] theorem out_dtotal (p : Port) (l : Level) (s : State) : (out p l s).dtotal = s.dtotal := rfl
@[simp] theorem out_dlong (p : Port) (l : Level) (s : State) : (out p l s).dlong = s.dlong := rfl
@[simp] theorem out_dcount (p : Port) (l : Level) (s : State) : (out p l s).dcount = s.dcount := rfl
@[simp] theorem out_tcnt (p : Port) (l : Level) (s : State) : (out p l s).tcnt = s.tcnt := rfl
@[simp] theorem out_pos (p : Port) (l : Level) (s : State) : (out p l s).pos = s.pos := rfl
@[simp] theorem out_pulse (p : Port) (l : Level) (s : State) : (out p l s).pulse = s.pulse := rfl
@[simp] theorem out_dirlvl (p : Port) (l : Level) (s : State) : (out p l s).dirlvl = s.dirlvl := rfl
@[simp] theorem out_enlvl (p : Port) (l : Level) (s : State) : (out p l s).enlvl = s.enlvl := rfl
@[simp] theorem out_result (p : Port) (l : Level) (s : State) : (out p l s).result = s.result := rfl
@[simp] theorem out_refused (p : Port) (l : Level) (s : State) : (out p l s).refused = s.refused := rfl
@[simp] theorem out_lastRefusal (p : Port) (l : Level) (s : State) : (out p l s).lastRefusal = s.lastRefusal := rfl
@[simp] theorem out_cfgIn (p : Port) (l : Level) (s : State) : (out p l s).cfgIn = s.cfgIn := rfl
@[simp] theorem out_pending (p : Port) (l : Level) (s : State) : (out p l s).pending = s.pending := rfl

@[simp] theorem lowerPulse_cfg (s : State) : (lowerPulse s).cfg = s.cfg := by unfold lowerPulse; split <;> rfl
@[simp] theorem lowerPulse_maxV (s : State) : (lowerPulse s).maxV = s.maxV := by unfold lowerPulse; split <;> rfl
@[simp] theorem lowerPulse_maxCode (s : State) : (lowerPulse s).maxCode = s.maxCode := by unfold lowerPulse; split <;> rfl
@[simp] theorem lowerPulse_built (s : State) : (lowerPulse s).built = s.built := by unfold lowerPulse; split <;> rfl
@[simp] theorem lowerPulse_enabled (s : State) : (lowerPulse s).enabled = s.enabled := by unfold lowerPulse; split <;> rfl
@[simp] theorem lowerPulse_dir (s : State) : (lowerPulse s).dir = s.dir := by unfold lowerPulse; split <;> rfl
@[simp] theorem lowerPulse_vel (s : State) : (lowerPulse s).vel = s.vel := by unfold lowerPulse; split <;> rfl
@[simp] theorem lowerPulse_inc (s : State) : (lowerPulse s).inc = s.inc := by unfold lowerPulse; split <;> rfl
@[simp] theorem lowerPulse_acc (s : State) : (lowerPulse s).acc = s.acc := by unfold lowerPulse; split <;> rfl
@[simp] theorem lowerPulse_tps (s : State) : (lowerPulse s).tps = s.tps := by unfold lowerPulse; split <;> rfl
@[simp] theorem lowerPulse_dtotal (s : State) : (lowerPulse s).dtotal = s.dtotal := by unfold lowerPulse; split <;> rfl
@[simp] theorem lowerPulse_dlong (s : State) : (lowerPulse s).dlong = s.dlong := by unfold lowerPulse; split <;> rfl
@[simp] theorem lowerPulse_dcount (s : State) : (lowerPulse s).dcount = s.dcount := by unfold lowerPulse; split <;> rfl
@[simp] theorem lowerPulse_tcnt (s : State) : (lowerPulse s).tcnt = s.tcnt := by unfold lowerPulse; split <;> rfl
@[simp] theorem lowerPulse_pos (s : State) : (lowerPulse s).pos = s.pos := by unfold lowerPulse; split <;> rfl
@[simp] theorem lowerPulse_dirlvl (s : State) : (lowerPulse s).dirlvl = s.dirlvl := by unfold lowerPulse; split <;> rfl
@[simp] theorem lowerPulse_enlvl (s : State) : (lowerPulse s).enlvl = s.enlvl := by unfold lowerPulse; split <;> rfl
@[simp] theorem lowerPulse_result (s : State) : (lowerPulse s).result = s.result := by unfold lowerPulse; split <;> rfl
@[simp] theorem lowerPulse_refused (s : State) : (lowerPulse s).refused = s.refused := by unfold lowerPulse; split <;> rfl
@[simp] theorem lowerPulse_lastRefusal (s : State) : (lowerPulse s).lastRefusal = s.lastRefusal := by unfold lowerPulse; split <;> rfl
@[simp] theorem lowerPulse_cfgIn (s : State) : (lowerPulse s).cfgIn = s.cfgIn := by unfold lowerPulse; split <;> rfl
@[simp] theorem lowerPulse_pending (s : State) : (lowerPulse s).pending = s.pending := by unfold lowerPulse; split <;> rfl

@[simp] theorem fire_cfg (up : Bool) (s : State) : (fire up s).cfg = s.cfg := rfl
@[simp] theorem fire_maxV (up : Bool) (s : State) : (fire up s).maxV = s.maxV := rfl
@[simp] theorem fire_maxCode (up : Bool) (s : State) : (fire up s).maxCode = s.maxCode := rfl
@[simp] theorem fire_built (up : Bool) (s : State) : (fire up s).built = s.built := rfl
@[simp] theorem fire_enabled (up : Bool) (s : State) : (fire up s).enabled = s.enabled := rfl
@[simp] theorem fire_dir (up : Bool) (s : State) : (fire up s).dir = s.dir := rfl
@[simp] theorem fire_vel (up : Bool) (s : State) : (fire up s).vel = s.vel := rfl
@[simp] theorem fire_inc (up : Bool) (s : State) : (fire up s).inc = s.inc := rfl
@[simp] theorem fire_acc (up : Bool) (s : State) : (fire up s).acc = s.acc := rfl
@[simp] theorem fire_tps (up : Bool) (s : State) : (fire up s).tps = s.tps := rfl
@[simp] theorem fire_dtotal (up : Bool) (s : State) : (fire up s).dtotal = s.dtotal := rfl
@[simp] theorem fire_dlong (up : Bool) (s : State) : (fire up s).dlong = s.dlong := rfl
@[simp] theorem fire_dcount (up : Bool) (s : State) : (fire up s).dcount = s.dcount := rfl
@[simp] theorem fire_tcnt (up : Bool) (s : State) : (fire up s).tcnt = s.tcnt := rfl
@[simp] theorem fire_dirlvl (up : Bool) (s : State) : (fire up s).dirlvl = s.dirlvl := rfl
@[simp] theorem fire_enlvl (up : Bool) (s : State) : (fire up s).enlvl = s.enlvl := rfl
@[simp] theorem fire_result (up : Bool) (s : State) : (fire up s).result = s.result := rfl
@[simp] theorem fire_refused (up : Bool) (s : State) : (fire up s).refused = s.refused := rfl
@[simp] theorem fire_lastRefusal (up : Bool) (s : State) : (fire up s).lastRefusal = s.lastRefusal := rfl
@[simp] theorem fire_cfgIn (up : Bool) (s : State) : (fire up s).cfgIn = s.cfgIn := rfl
@[simp] theorem fire_pending (up : Bool) (s : State) : (fire up s).pending = s.pending := rfl

@[simp] theorem writeTiming_cfg (p : TimingParam) (s : State) : (writeTiming p s).cfg = s.cfg := by cases p <;> rfl
@[simp] theorem writeTiming_maxV (p : TimingParam) (s : State) : (writeTiming p s).maxV = s.maxV := by cases p <;> rfl
@[simp] theorem writeTiming_maxCode (p : TimingParam) (s : State) : (writeTiming p s).maxCode = s.maxCode := by cases p <;> rfl
@[simp] theorem writeTiming_built (p : TimingParam) (s : State) : (writeTiming p s).built = s.built := by cases p <;> rfl
@[simp] theorem writeTiming_enabled (p : TimingParam) (s : State) : (writeTiming p s).enabled = s.enabled := by cases p <;> rfl
@[simp] theorem writeTiming_dir (p : TimingParam) (s : State) : (writeTiming p s).dir = s.dir := by cases p <;> rfl
@[simp] theorem writeTiming_vel (p : TimingParam) (s : State) : (writeTiming p s).vel = s.vel := by cases p <;> rfl
@[simp] theorem writeTiming_acc (p : TimingParam) (s : State) : (writeTiming p s).acc = s.acc := by cases p <;> rfl
@[simp] theorem writeTiming_dcount (p : TimingParam) (s : State) : (writeTiming p s).dcount = s.dcount := by cases p <;> rfl
@[simp] theorem writeTiming_tcnt (p : TimingParam) (s : State) : (writeTiming p s).tcnt = s.tcnt := by cases p <;> rfl
@[simp] theorem writeTiming_pos (p : TimingParam) (s : State) : (writeTiming p s).pos = s.pos := by cases p <;> rfl
@[simp] theorem writeTiming_pulse (p : TimingParam) (s : State) : (writeTiming p s).pulse = s.pulse := by cases p <;> rfl
@[simp] theorem writeTiming_dirlvl (p : TimingParam) (s : State) : (writeTiming p s).dirlvl = s.dirlvl := by cases p <;> rfl
@[simp] theorem writeTiming_enlvl (p : TimingParam) (s : State) : (writeTiming p s).enlvl = s.enlvl := by cases p <;> rfl
@[simp] theorem writeTiming_result (p : TimingParam) (s : State) : (writeTiming p s).result = s.result := by cases p <;> rfl
@[simp] theorem writeTiming_outlog (p : TimingParam) (s : State) : (writeTiming p s).outlog = s.outlog := by cases p <;> rfl
@[simp] theorem writeTiming_refused (p : TimingParam) (s : State) : (writeTiming p s).refused = s.refused := by cases p <;> rfl
@[simp] theorem writeTiming_lastRefusal (p : TimingParam) (s : State) : (writeTiming p s).lastRefusal = s.lastRefusal := by cases p <;> rfl
@[simp] theorem writeTiming_cfgIn (p : TimingParam) (s : State) : (writeTiming p s).cfgIn = s.cfgIn := by cases p <;> rfl
@[simp] theorem writeTiming_pending (p : TimingParam) (s : State) : (writeTiming p s).pending = s.pending := by cases p <;> rfl

@[simp] theorem writeDcount_cfg (v : ℕ) (s : State) : (writeDcount v s).cfg = s.cfg := by unfold writeDcount; split <;> rfl
@[simp] theorem writeDcount_maxV (v : ℕ) (s : State) : (writeDcount v s).maxV = s.maxV := by unfold writeDcount; split <;> rfl
@[simp] theorem writeDcount_maxCode (v : ℕ) (s : State) : (writeDcount v s).maxCode = s.maxCode := by unfold writeDcount; split <;> rfl
@[simp] theorem writeDcount_built (v : ℕ) (s : State) : (writeDcount v s).built = s.built := by unfold writeDcount; split <;> rfl
@[simp] theorem writeDcount_enabled (v : ℕ) (s : State) : (writeDcount v s).enabled = s.enabled := by unfold writeDcount; split <;> rfl
@[simp] theorem writeDcount_dir (v : ℕ) (s : State) : (writeDcount v s).dir = s.dir := by unfold writeDcount; split <;> rfl
@[simp] theorem writeDcount_vel (v : ℕ) (s : State) : (writeDcount v s).vel = s.vel := by unfold writeDcount; split <;> rfl
@[simp] theorem writeDcount_inc (v : ℕ) (s : State) : (writeDcount v s).inc = s.inc := by unfold writeDcount; split <;> rfl
@[simp] theorem writeDcount_acc (v : ℕ) (s : State) : (writeDcount v s).acc = s.acc := by unfold writeDcount; split <;> rfl
@[simp] theorem writeDcount_tps (v : ℕ) (s : State) : (writeDcount v s).tps = s.tps := by unfold writeDcount; split <;> rfl
@[simp] theorem writeDcount_dtotal (v : ℕ) (s : State) : (writeDcount v s).dtotal = s.dtotal := by unfold writeDcount; split <;> rfl
@[simp] theorem writeDcount_dlong (v : ℕ) (s : State) : (writeDcount v s).dlong = s.dlong := by unfold writeDcount; split <;> rfl
@[simp] theorem writeDcount_tcnt (v : ℕ) (s : State) : (writeDcount v s).tcnt = s.tcnt := by unfold writeDcount; split <;> rfl
@[simp] theorem writeDcount_pos (v : ℕ) (s : State) : (writeDcount v s).pos = s.pos := by unfold writeDcount; split <;> rfl
@[simp] theorem writeDcount_pulse (v : ℕ) (s : State) : (writeDcount v s).pulse = s.pulse := by unfold writeDcount; split <;> rfl
@[simp] theorem writeDcount_dirlvl (v : ℕ) (s : State) : (writeDcount v s).dirlvl = s.dirlvl := by unfold writeDcount; split <;> rfl
@[simp] theorem writeDcount_enlvl (v : ℕ) (s : State) : (writeDcount v s).enlvl = s.enlvl := by unfold writeDcount; split <;> rfl
@[simp] theorem writeDcount_result (v : ℕ) (s : State) : (writeDcount v s).result = s.result := by unfold writeDcount; split <;> rfl
@[simp] theorem writeDcount_outlog (v : ℕ) (s : State) : (writeDcount v s).outlog = s.outlog := by unfold writeDcount; split <;> rfl
@[simp] theorem writeDcount_refused (v : ℕ) (s : State) : (writeDcount v s).refused = s.refused := by unfold writeDcount; split <;> rfl
@[simp] theorem writeDcount_lastRefusal (v : ℕ) (s : State) : (writeDcount v s).lastRefusal = s.lastRefusal := by unfold writeDcount; split <;> rfl
@[simp] theorem writeDcount_cfgIn (v : ℕ) (s : State) : (writeDcount v s).cfgIn = s.cfgIn := by unfold writeDcount; split <;> rfl
@[simp] theorem writeDcount_pending (v : ℕ) (s : State) : (writeDcount v s).pending = s.pending := by unfold writeDcount; split <;> rfl

@[simp] theorem clearSubStep_cfg (s : State) : (clearSubStep s).cfg = s.cfg := by unfold clearSubStep; split <;> rfl
@[simp] theorem clearSubStep_maxV (s : State) : (clearSubStep s).maxV = s.maxV := by unfold clearSubStep; split <;> rfl
@[simp] theorem clearSubStep_maxCode (s : State) : (clearSubStep s).maxCode = s.maxCode := by unfold clearSubStep; split <;> rfl
@[simp] theorem clearSubStep_built (s : State) : (clearSubStep s).built = s.built := by unfold clearSubStep; split <;> rfl
@[simp] theorem clearSubStep_enabled (s : State) : (clearSubStep s).enabled = s.enabled := by unfold clearSubStep; split <;> rfl
@[simp] theorem clearSubStep_dir (s : State) : (clearSubStep s).dir = s.dir := by unfold clearSubStep; split <;> rfl
@[simp] theorem clearSubStep_vel (s : State) : (clearSubStep s).vel = s.vel := by unfold clearSubStep; split <;> rfl
@[simp] theorem clearSubStep_inc (s : State) : (clearSubStep s).inc = s.inc := by unfold clearSubStep; split <;> rfl
@[simp] theorem clearSubStep_tps (s : State) : (clearSubStep s).tps = s.tps := by unfold clearSubStep; split <;> rfl
@[simp] theorem clearSubStep_dtotal (s : State) : (clearSubStep s).dtotal = s.dtotal := by unfold clearSubStep; split <;> rfl
@[simp] theorem clearSubStep_dlong (s : State) : (clearSubStep s).dlong = s.dlong := by unfold clearSubStep; split <;> rfl
@[simp] theorem clearSubStep_pos (s : State) : (clearSubStep s).pos = s.pos := by unfold clearSubStep; split <;> rfl
@[simp] theorem clearSubStep_pulse (s : State) : (clearSubStep s).pulse = s.pulse := by unfold clearSubStep; split <;> rfl
@[simp] theorem clearSubStep_dirlvl (s : State) : (clearSubStep s).dirlvl = s.dirlvl := by unfold clearSubStep; split <;> rfl
@[simp] theorem clearSubStep_enlvl (s : State) : (clearSubStep s).enlvl = s.enlvl := by unfold clearSubStep; split <;> rfl
@[simp] theorem clearSubStep_result (s : State) : (clearSubStep s).result = s.result := by unfold clearSubStep; split <;> rfl
@[simp] theorem clearSubStep_outlog (s : State) : (clearSubStep s).outlog = s.outlog := by unfold clearSubStep; split <;> rfl
@[simp] theorem clearSubStep_refused (s : State) : (clearSubStep s).refused = s.refused := by unfold clearSubStep; split <;> rfl
@[simp] theorem clearSubStep_lastRefusal (s : State) : (clearSubStep s).lastRefusal = s.lastRefusal := by unfold clearSubStep; split <;> rfl
@[simp] theorem clearSubStep_cfgIn (s : State) : (clearSubStep s).cfgIn = s.cfgIn := by unfold clearSubStep; split <;> rfl
@[simp] theorem clearSubStep_pending (s : State) : (clearSubStep s).pending = s.pending := by unfold clearSubStep; split <;> rfl

@[simp] theorem stopMotor_cfg (s : State) : (stopMotor s).cfg = s.cfg := by simp [stopMotor]
@[simp] theorem stopMotor_maxV (s : State) : (stopMotor s).maxV = s.maxV := by simp [stopMotor]
@[simp] theorem stopMotor_maxCode (s : State) : (stopMotor s).maxCode = s.maxCode := by simp [stopMotor]
@[simp] theorem stopMotor_built (s : State) : (stopMotor s).built = s.built := by simp [stopMotor]
@[simp] theorem stopMotor_enabled (s : State) : (stopMotor s).enabled = s.enabled := by simp [stopMotor]
@[simp] theorem stopMotor_vel (s : State) : (stopMotor s).vel = s.vel := by simp [stopMotor]
@[simp] theorem stopMotor_acc (s : State) : (stopMotor s).acc = s.acc := by simp [stopMotor]
@[simp] theorem stopMotor_tcnt (s : State) : (stopMotor s).tcnt = s.tcnt := by simp [stopMotor]
@[simp] theorem stopMotor_pos (s : State) : (stopMotor s).pos = s.pos := by simp [stopMotor]
@[simp] theorem stopMotor_pulse (s : State) : (stopMotor s).pulse = s.pulse := by simp [stopMotor]
@[simp] theorem stopMotor_dirlvl (s : State) : (stopMotor s).dirlvl = s.dirlvl := by simp [stopMotor]
@[simp] theorem stopMotor_enlvl (s : State) : (stopMotor s).enlvl = s.enlvl := by simp [stopMotor]
@[simp] theorem stopMotor_result (s : State) : (stopMotor s).result = s.result := by simp [stopMotor]
@[simp] theorem stopMotor_outlog (s : State) : (stopMotor s).outlog = s.outlog := by simp [stopMotor]
@[simp] theorem stopMotor_refused (s : State) : (stopMotor s).refused = s.refused := by simp [stopMotor]
@[simp] theorem stopMotor_lastRefusal (s : State) : (stopMotor s).lastRefusal = s.lastRefusal := by simp [stopMotor]
@[simp] theorem stopMotor_cfgIn (s : State) : (stopMotor s).cfgIn = s.cfgIn := by simp [stopMotor]
@[simp] theorem stopMotor_pending (s : State) : (stopMotor s).pending = s.pending := by simp [stopMotor]

@[simp] theorem driveDirOut_cfg (d : Dir) (s : State) :
    (driveDirOut d s).cfg = s.cfg := by unfold driveDirOut; cases d <;> dsimp only <;> split <;> rfl
@[simp] theorem driveDirOut_maxV (d : Dir) (s : State) :
    (driveDirOut d s).maxV = s.maxV := by unfold driveDirOut; cases d <;> dsimp only <;> split <;> rfl
@[simp] theorem driveDirOut_maxCode (d : Dir) (s : State) :
    (driveDirOut d s).maxCode = s.maxCode := by unfold driveDirOut; cases d <;> dsimp only <;> split <;> rfl
@[simp] theorem driveDirOut_built (d : Dir) (s : State) :
    (driveDirOut d s).built = s.built := by unfold driveDirOut; cases d <;> dsimp only <;> split <;> rfl
@[simp] theorem driveDirOut_enabled (d : Dir) (s : State) :
    (driveDirOut d s).enabled = s.enabled := by unfold driveDirOut; cases d <;> dsimp only <;> split <;> rfl
@[simp] theorem driveDirOut_dir (d : Dir) (s : State) :
    (driveDirOut d s).dir = s.dir := by unfold driveDirOut; cases d <;> dsimp only <;> split <;> rfl
@[simp] theorem driveDirOut_vel (d : Dir) (s : State) :
    (driveDirOut d s).vel = s.vel := by unfold driveDirOut; cases d <;> dsimp only <;> split <;> rfl
@[simp] theorem driveDirOut_inc (d : Dir) (s : State) :
    (driveDirOut d s).inc = s.inc := by unfold driveDirOut; cases d <;> dsimp only <;> split <;> rfl
@[simp] theorem driveDirOut_acc (d : Dir) (s : State) :
    (driveDirOut d s).acc = s.acc := by unfold driveDirOut; cases d <;> dsimp only <;> split <;> rfl
@[simp] theorem driveDirOut_tps (d : Dir) (s : State) :
    (driveDirOut d s).tps = s.tps := by unfold driveDirOut; cases d <;> dsimp only <;> split <;> rfl
@[simp] theorem driveDirOut_dtotal (d : Dir) (s : State) :
    (driveDirOut d s).dtotal = s.dtotal := by unfold driveDirOut; cases d <;> dsimp only <;> split <;> rfl
@[simp] theorem driveDirOut_dlong (d : Dir) (s : State) :
    (driveDirOut d s).dlong = s.dlong := by unfold driveDirOut; cases d <;> dsimp only <;> split <;> rfl
@[simp] theorem driveDirOut_dcount (d : Dir) (s : State) :
    (driveDirOut d s).dcount = s.dcount := by unfold driveDirOut; cases d <;> dsimp only <;> split <;> rfl
@[simp] theorem driveDirOut_tcnt (d : Dir) (s : State) :
    (driveDirOut d s).tcnt = s.tcnt := by unfold driveDirOut; cases d <;> dsimp only <;> split <;> rfl
@[simp] theorem driveDirOut_pos (d : Dir) (s : State) :
    (driveDirOut d s).pos = s.pos := by unfold driveDirOut; cases d <;> dsimp only <;> split <;> rfl
@[simp] theorem driveDirOut_pulse (d : Dir) (s : State) :
    (driveDirOut d s).pulse = s.pulse := by unfold driveDirOut; cases d <;> dsimp only <;> split <;> rfl
@[simp] theorem driveDirOut_enlvl (d : Dir) (s : State) :
    (driveDirOut d s).enlvl = s.enlvl := by unfold driveDirOut; cases d <;> dsimp only <;> split <;> rfl
@[simp] theorem driveDirOut_result (d : Dir) (s : State) :
    (driveDirOut d s).result = s.result := by unfold driveDirOut; cases d <;> dsimp only <;> split <;> rfl
@[simp] theorem driveDirOut_refused (d : Dir) (s : State) :
    (driveDirOut d s).refused = s.refused := by unfold driveDirOut; cases d <;> dsimp only <;> split <;> rfl
@[simp] theorem driveDirOut_lastRefusal (d : Dir) (s : State) :
    (driveDirOut d s).lastRefusal = s.lastRefusal := by unfold driveDirOut; cases d <;> dsimp only <;> split <;> rfl
@[simp] theorem driveDirOut_cfgIn (d : Dir) (s : State) :
    (driveDirOut d s).cfgIn = s.cfgIn := by unfold driveDirOut; cases d <;> dsimp only <;> split <;> rfl
@[simp] theorem driveDirOut_pending (d : Dir) (s : State) :
    (driveDirOut d s).pending = s.pending := by unfold driveDirOut; cases d <;> dsimp only <;> split <;> rfl

@[simp] theorem driveEnOut_cfg (l : Level) (s : State) : (driveEnOut l s).cfg = s.cfg := rfl
@[simp] theorem driveEnOut_maxV (l : Level) (s : State) : (driveEnOut l s).maxV = s.maxV := rfl
@[simp] theorem driveEnOut_maxCode (l : Level) (s : State) : (driveEnOut l s).maxCode = s.maxCode := rfl
@[simp] theorem driveEnOut_built (l : Level) (s : State) : (driveEnOut l s).built = s.built := rfl
@[simp] theorem driveEnOut_enabled (l : Level) (s : State) : (driveEnOut l s).enabled = s.enabled := rfl
@[simp] theorem driveEnOut_dir (l : Level) (s : State) : (driveEnOut l s).dir = s.dir := rfl
@[simp] theorem driveEnOut_vel (l : Level) (s : State) : (driveEnOut l s).vel = s.vel := rfl
@[simp] theorem driveEnOut_inc (l : Level) (s : State) : (driveEnOut l s).inc = s.inc := rfl
@[simp] theorem driveEnOut_acc (l : Level) (s : State) : (driveEnOut l s).acc = s.acc := rfl
@[simp] theorem driveEnOut_tps (l : Level) (s : State) : (driveEnOut l s).tps = s.tps := rfl
@[simp] theorem driveEnOut_dtotal (l : Level) (s : State) : (driveEnOut l s).dtotal = s.dtotal := rfl
@[simp] theorem driveEnOut_dlong (l : Level) (s : State) : (driveEnOut l s).dlong = s.dlong := rfl
@[simp] theorem driveEnOut_dcount (l : Level) (s : State) : (driveEnOut l s).dcount = s.dcount := rfl
@[simp] theorem driveEnOut_tcnt (l : Level) (s : State) : (driveEnOut l s).tcnt = s.tcnt := rfl
@[simp] theorem driveEnOut_pos (l : Level) (s : State) : (driveEnOut l s).pos = s.pos := rfl
@[simp] theorem driveEnOut_pulse (l : Level) (s : State) : (driveEnOut l s).pulse = s.pulse := rfl
@[simp] theorem driveEnOut_dirlvl (l : Level) (s : State) : (driveEnOut l s).dirlvl = s.dirlvl := rfl
@[simp] theorem driveEnOut_result (l : Level) (s : State) : (driveEnOut l s).result = s.result := rfl
@[simp] theorem driveEnOut_refused (l : Level) (s : State) : (driveEnOut l s).refused = s.refused := rfl
@[simp] theorem driveEnOut_lastRefusal (l : Level) (s : State) : (driveEnOut l s).lastRefusal = s.lastRefusal := rfl
@[simp] theorem driveEnOut_cfgIn (l : Level) (s : State) : (driveEnOut l s).cfgIn = s.cfgIn := rfl
@[simp] theorem driveEnOut_pending (l : Level) (s : State) : (driveEnOut l s).pending = s.pending := rfl

@[simp] theorem commitVelocity_cfg (c : ℤ) (d : Dir) (p : TimingParam) (s : State) :
    (commitVelocity c d p s).cfg = s.cfg := by simp [commitVelocity]
@[simp] theorem commitVelocity_maxV (c : ℤ) (d : Dir) (p : TimingParam) (s : State) :
    (commitVelocity c d p s).maxV = s.maxV := by simp [commitVelocity]
@[simp] theorem commitVelocity_maxCode (c : ℤ) (d : Dir) (p : TimingParam) (s : State) :
    (commitVelocity c d p s).maxCode = s.maxCode := by simp [commitVelocity]
@[simp] theorem commitVelocity_built (c : ℤ) (d : Dir) (p : TimingParam) (s : State) :
    (commitVelocity c d p s).built = s.built := by simp [commitVelocity]
@[simp] theorem commitVelocity_enabled (c : ℤ) (d : Dir) (p : TimingParam) (s : State) :
    (commitVelocity c d p s).enabled = s.enabled := by simp [commitVelocity]
@[simp] theorem commitVelocity_acc (c : ℤ) (d : Dir) (p : TimingParam) (s : State) :
    (commitVelocity c d p s).acc = s.acc := by simp [commitVelocity]
@[simp] theorem commitVelocity_tcnt (c : ℤ) (d : Dir) (p : TimingParam) (s : State) :
    (commitVelocity c d p s).tcnt = s.tcnt := by simp [commitVelocity]
@[simp] theorem commitVelocity_pos (c : ℤ) (d : Dir) (p : TimingParam) (s : State) :
    (commitVelocity c d p s).pos = s.pos := by simp [commitVelocity]
@[simp] theorem commitVelocity_pulse (c : ℤ) (d : Dir) (p : TimingParam) (s : State) :
    (commitVelocity c d p s).pulse = s.pulse := by simp [commitVelocity]
@[simp] theorem commitVelocity_enlvl (c : ℤ) (d : Dir) (p : TimingParam) (s : State) :
    (commitVelocity c d p s).enlvl = s.enlvl := by simp [commitVelocity]
@[simp] theorem commitVelocity_result (c : ℤ) (d : Dir) (p : TimingParam) (s : State) :
    (commitVelocity c d p s).result = s.result := by simp [commitVelocity]
@[simp] theorem commitVelocity_refused (c : ℤ) (d : Dir) (p : TimingParam) (s : State) :
    (commitVelocity c d p s).refused = s.refused := by simp [commitVelocity]
@[simp] theorem commitVelocity_lastRefusal (c : ℤ) (d : Dir) (p : TimingParam) (s : State) :
    (commitVelocity c d p s).lastRefusal = s.lastRefusal := by simp [commitVelocity]
@[simp] theorem commitVelocity_cfgIn (c : ℤ) (d : Dir) (p : TimingParam) (s : State) :
    (commitVelocity c d p s).cfgIn = s.cfgIn := by simp [commitVelocity]
@[simp] theorem commitVelocity_pending (c : ℤ) (d : Dir) (p : TimingParam) (s : State) :
    (commitVelocity c d p s).pending = s.pending := by simp [commitVelocity]

@[simp] theorem setVelocity_cfg (opd : Word) (s : State) : (setVelocity opd s).cfg = s.cfg := by simp [setVelocity]
@[simp] theorem setVelocity_maxV (opd : Word) (s : State) : (setVelocity opd s).maxV = s.maxV := by simp [setVelocity]
@[simp] theorem setVelocity_maxCode (opd : Word) (s : State) : (setVelocity opd s).maxCode = s.maxCode := by simp [setVelocity]
@[simp] theorem setVelocity_built (opd : Word) (s : State) : (setVelocity opd s).built = s.built := by simp [setVelocity]
@[simp] theorem setVelocity_enabled (opd : Word) (s : State) : (setVelocity opd s).enabled = s.enabled := by simp [setVelocity]
@[simp] theorem setVelocity_acc (opd : Word) (s : State) : (setVelocity opd s).acc = s.acc := by simp [setVelocity]
@[simp] theorem setVelocity_tcnt (opd : Word) (s : State) : (setVelocity opd s).tcnt = s.tcnt := by simp [setVelocity]
@[simp] theorem setVelocity_pos (opd : Word) (s : State) : (setVelocity opd s).pos = s.pos := by simp [setVelocity]
@[simp] theorem setVelocity_pulse (opd : Word) (s : State) : (setVelocity opd s).pulse = s.pulse := by simp [setVelocity]
@[simp] theorem setVelocity_enlvl (opd : Word) (s : State) : (setVelocity opd s).enlvl = s.enlvl := by simp [setVelocity]
@[simp] theorem setVelocity_result (opd : Word) (s : State) : (setVelocity opd s).result = s.result := by simp [setVelocity]
@[simp] theorem setVelocity_refused (opd : Word) (s : State) : (setVelocity opd s).refused = s.refused := by simp [setVelocity]
@[simp] theorem setVelocity_lastRefusal (opd : Word) (s : State) : (setVelocity opd s).lastRefusal = s.lastRefusal := by simp [setVelocity]
@[simp] theorem setVelocity_cfgIn (opd : Word) (s : State) : (setVelocity opd s).cfgIn = s.cfgIn := by simp [setVelocity]
@[simp] theorem setVelocity_pending (opd : Word) (s : State) : (setVelocity opd s).pending = s.pending := by simp [setVelocity]

@[simp] theorem overwritePosition_cfg (n : ℤ) (s : State) : (overwritePosition n s).cfg = s.cfg := by simp [overwritePosition]
@[simp] theorem overwritePosition_maxV (n : ℤ) (s : State) : (overwritePosition n s).maxV = s.maxV := by simp [overwritePosition]
@[simp] theorem overwritePosition_maxCode (n : ℤ) (s : State) : (overwritePosition n s).maxCode = s.maxCode := by simp [overwritePosition]
@[simp] theorem overwritePosition_built (n : ℤ) (s : State) : (overwritePosition n s).built = s.built := by simp [overwritePosition]
@[simp] theorem overwritePosition_enabled (n : ℤ) (s : State) : (overwritePosition n s).enabled = s.enabled := by simp [overwritePosition]
@[simp] theorem overwritePosition_dir (n : ℤ) (s : State) : (overwritePosition n s).dir = s.dir := by simp [overwritePosition]
@[simp] theorem overwritePosition_vel (n : ℤ) (s : State) : (overwritePosition n s).vel = s.vel := by simp [overwritePosition]
@[simp] theorem overwritePosition_inc (n : ℤ) (s : State) : (overwritePosition n s).inc = s.inc := by simp [overwritePosition]
@[simp] theorem overwritePosition_tps (n : ℤ) (s : State) : (overwritePosition n s).tps = s.tps := by simp [overwritePosition]
@[simp] theorem overwritePosition_dtotal (n : ℤ) (s : State) : (overwritePosition n s).dtotal = s.dtotal := by simp [overwritePosition]
@[simp] theorem overwritePosition_dlong (n : ℤ) (s : State) : (overwritePosition n s).dlong = s.dlong := by simp [overwritePosition]
@[simp] theorem overwritePosition_pulse (n : ℤ) (s : State) : (overwritePosition n s).pulse = s.pulse := by simp [overwritePosition]
@[simp] theorem overwritePosition_dirlvl (n : ℤ) (s : State) : (overwritePosition n s).dirlvl = s.dirlvl := by simp [overwritePosition]
@[simp] theorem overwritePosition_enlvl (n : ℤ) (s : State) : (overwritePosition n s).enlvl = s.enlvl := by simp [overwritePosition]
@[simp] theorem overwritePosition_result (n : ℤ) (s : State) : (overwritePosition n s).result = s.result := by simp [overwritePosition]
@[simp] theorem overwritePosition_outlog (n : ℤ) (s : State) : (overwritePosition n s).outlog = s.outlog := by simp [overwritePosition]
@[simp] theorem overwritePosition_refused (n : ℤ) (s : State) : (overwritePosition n s).refused = s.refused := by simp [overwritePosition]
@[simp] theorem overwritePosition_lastRefusal (n : ℤ) (s : State) : (overwritePosition n s).lastRefusal = s.lastRefusal := by simp [overwritePosition]
@[simp] theorem overwritePosition_cfgIn (n : ℤ) (s : State) : (overwritePosition n s).cfgIn = s.cfgIn := by simp [overwritePosition]
@[simp] theorem overwritePosition_pending (n : ℤ) (s : State) : (overwritePosition n s).pending = s.pending := by simp [overwritePosition]

@[simp] theorem holdStopped_cfg (s : State) : (holdStopped s).cfg = s.cfg := by unfold holdStopped; split <;> rfl
@[simp] theorem holdStopped_maxV (s : State) : (holdStopped s).maxV = s.maxV := by unfold holdStopped; split <;> rfl
@[simp] theorem holdStopped_maxCode (s : State) : (holdStopped s).maxCode = s.maxCode := by unfold holdStopped; split <;> rfl
@[simp] theorem holdStopped_built (s : State) : (holdStopped s).built = s.built := by unfold holdStopped; split <;> rfl
@[simp] theorem holdStopped_enabled (s : State) : (holdStopped s).enabled = s.enabled := by unfold holdStopped; split <;> rfl
@[simp] theorem holdStopped_dir (s : State) : (holdStopped s).dir = s.dir := by unfold holdStopped; split <;> rfl
@[simp] theorem holdStopped_vel (s : State) : (holdStopped s).vel = s.vel := by unfold holdStopped; split <;> rfl
@[simp] theorem holdStopped_inc (s : State) : (holdStopped s).inc = s.inc := by unfold holdStopped; split <;> rfl
@[simp] theorem holdStopped_acc (s : State) : (holdStopped s).acc = s.acc := by unfold holdStopped; split <;> rfl
@[simp] theorem holdStopped_tps (s : State) : (holdStopped s).tps = s.tps := by unfold holdStopped; split <;> rfl
@[simp] theorem holdStopped_dtotal (s : State) : (holdStopped s).dtotal = s.dtotal := by unfold holdStopped; split <;> rfl
@[simp] theorem holdStopped_dlong (s : State) : (holdStopped s).dlong = s.dlong := by unfold holdStopped; split <;> rfl
@[simp] theorem holdStopped_dcount (s : State) : (holdStopped s).dcount = s.dcount := by unfold holdStopped; split <;> rfl
@[simp] theorem holdStopped_pos (s : State) : (holdStopped s).pos = s.pos := by unfold holdStopped; split <;> rfl
@[simp] theorem holdStopped_pulse (s : State) : (holdStopped s).pulse = s.pulse := by unfold holdStopped; split <;> rfl
@[simp] theorem holdStopped_dirlvl (s : State) : (holdStopped s).dirlvl = s.dirlvl := by unfold holdStopped; split <;> rfl
@[simp] theorem holdStopped_enlvl (s : State) : (holdStopped s).enlvl = s.enlvl := by unfold holdStopped; split <;> rfl
@[simp] theorem holdStopped_result (s : State) : (holdStopped s).result = s.result := by unfold holdStopped; split <;> rfl
@[simp] theorem holdStopped_outlog (s : State) : (holdStopped s).outlog = s.outlog := by unfold holdStopped; split <;> rfl
@[simp] theorem holdStopped_refused (s : State) : (holdStopped s).refused = s.refused := by unfold holdStopped; split <;> rfl
@[simp] theorem holdStopped_lastRefusal (s : State) : (holdStopped s).lastRefusal = s.lastRefusal := by unfold holdStopped; split <;> rfl
@[simp] theorem holdStopped_cfgIn (s : State) : (holdStopped s).cfgIn = s.cfgIn := by unfold holdStopped; split <;> rfl
@[simp] theorem holdStopped_pending (s : State) : (holdStopped s).pending = s.pending := by unfold holdStopped; split <;> rfl

@[simp] theorem advancePhase_cfg (hp up : Bool) (s : State) :
    (advancePhase hp up s).cfg = s.cfg := by unfold advancePhase; dsimp only; split <;> [rfl; (split <;> rfl)]
@[simp] theorem advancePhase_maxV (hp up : Bool) (s : State) :
    (advancePhase hp up s).maxV = s.maxV := by unfold advancePhase; dsimp only; split <;> [rfl; (split <;> rfl)]
@[simp] theorem advancePhase_maxCode (hp up : Bool) (s : State) :
    (advancePhase hp up s).maxCode = s.maxCode := by unfold advancePhase; dsimp only; split <;> [rfl; (split <;> rfl)]
@[simp] theorem advancePhase_built (hp up : Bool) (s : State) :
    (advancePhase hp up s).built = s.built := by unfold advancePhase; dsimp only; split <;> [rfl; (split <;> rfl)]
@[simp] theorem advancePhase_enabled (hp up : Bool) (s : State) :
    (advancePhase hp up s).enabled = s.enabled := by unfold advancePhase; dsimp only; split <;> [rfl; (split <;> rfl)]
@[simp] theorem advancePhase_dir (hp up : Bool) (s : State) :
    (advancePhase hp up s).dir = s.dir := by unfold advancePhase; dsimp only; split <;> [rfl; (split <;> rfl)]
@[simp] theorem advancePhase_vel (hp up : Bool) (s : State) :
    (advancePhase hp up s).vel = s.vel := by unfold advancePhase; dsimp only; split <;> [rfl; (split <;> rfl)]
@[simp] theorem advancePhase_inc (hp up : Bool) (s : State) :
    (advancePhase hp up s).inc = s.inc := by unfold advancePhase; dsimp only; split <;> [rfl; (split <;> rfl)]
@[simp] theorem advancePhase_tps (hp up : Bool) (s : State) :
    (advancePhase hp up s).tps = s.tps := by unfold advancePhase; dsimp only; split <;> [rfl; (split <;> rfl)]
@[simp] theorem advancePhase_dtotal (hp up : Bool) (s : State) :
    (advancePhase hp up s).dtotal = s.dtotal := by unfold advancePhase; dsimp only; split <;> [rfl; (split <;> rfl)]
@[simp] theorem advancePhase_dlong (hp up : Bool) (s : State) :
    (advancePhase hp up s).dlong = s.dlong := by unfold advancePhase; dsimp only; split <;> [rfl; (split <;> rfl)]
@[simp] theorem advancePhase_dcount (hp up : Bool) (s : State) :
    (advancePhase hp up s).dcount = s.dcount := by unfold advancePhase; dsimp only; split <;> [rfl; (split <;> rfl)]
@[simp] theorem advancePhase_tcnt (hp up : Bool) (s : State) :
    (advancePhase hp up s).tcnt = s.tcnt := by unfold advancePhase; dsimp only; split <;> [rfl; (split <;> rfl)]
@[simp] theorem advancePhase_dirlvl (hp up : Bool) (s : State) :
    (advancePhase hp up s).dirlvl = s.dirlvl := by unfold advancePhase; dsimp only; split <;> [rfl; (split <;> rfl)]
@[simp] theorem advancePhase_enlvl (hp up : Bool) (s : State) :
    (advancePhase hp up s).enlvl = s.enlvl := by unfold advancePhase; dsimp only; split <;> [rfl; (split <;> rfl)]
@[simp] theorem advancePhase_result (hp up : Bool) (s : State) :
    (advancePhase hp up s).result = s.result := by unfold advancePhase; dsimp only; split <;> [rfl; (split <;> rfl)]
@[simp] theorem advancePhase_refused (hp up : Bool) (s : State) :
    (advancePhase hp up s).refused = s.refused := by unfold advancePhase; dsimp only; split <;> [rfl; (split <;> rfl)]
@[simp] theorem advancePhase_lastRefusal (hp up : Bool) (s : State) :
    (advancePhase hp up s).lastRefusal = s.lastRefusal := by unfold advancePhase; dsimp only; split <;> [rfl; (split <;> rfl)]
@[simp] theorem advancePhase_cfgIn (hp up : Bool) (s : State) :
    (advancePhase hp up s).cfgIn = s.cfgIn := by unfold advancePhase; dsimp only; split <;> [rfl; (split <;> rfl)]
@[simp] theorem advancePhase_pending (hp up : Bool) (s : State) :
    (advancePhase hp up s).pending = s.pending := by unfold advancePhase; dsimp only; split <;> [rfl; (split <;> rfl)]

@[simp] theorem advanceCount_cfg (hp up : Bool) (s : State) :
    (advanceCount hp up s).cfg = s.cfg := by unfold advanceCount; dsimp only; split <;> rfl
@[simp] theorem advanceCount_maxV (hp up : Bool) (s : State) :
    (advanceCount hp up s).maxV = s.maxV := by unfold advanceCount; dsimp only; split <;> rfl
@[simp] theorem advanceCount_maxCode (hp up : Bool) (s : State) :
    (advanceCount hp up s).maxCode = s.maxCode := by unfold advanceCount; dsimp only; split <;> rfl
@[simp] theorem advanceCount_built (hp up : Bool) (s : State) :
    (advanceCount hp up s).built = s.built := by unfold advanceCount; dsimp only; split <;> rfl
@[simp] theorem advanceCount_enabled (hp up : Bool) (s : State) :
    (advanceCount hp up s).enabled = s.enabled := by unfold advanceCount; dsimp only; split <;> rfl
@[simp] theorem advanceCount_dir (hp up : Bool) (s : State) :
    (advanceCount hp up s).dir = s.dir := by unfold advanceCount; dsimp only; split <;> rfl
@[simp] theorem advanceCount_vel (hp up : Bool) (s : State) :
    (advanceCount hp up s).vel = s.vel := by unfold advanceCount; dsimp only; split <;> rfl
@[simp] theorem advanceCount_inc (hp up : Bool) (s : State) :
    (advanceCount hp up s).inc = s.inc := by unfold advanceCount; dsimp only; split <;> rfl
@[simp] theorem advanceCount_acc (hp up : Bool) (s : State) :
    (advanceCount hp up s).acc = s.acc := by unfold advanceCount; dsimp only; split <;> rfl
@[simp] theorem advanceCount_tps (hp up : Bool) (s : State) :
    (advanceCount hp up s).tps = s.tps := by unfold advanceCount; dsimp only; split <;> rfl
@[simp] theorem advanceCount_dtotal (hp up : Bool) (s : State) :
    (advanceCount hp up s).dtotal = s.dtotal := by unfold advanceCount; dsimp only; split <;> rfl
@[simp] theorem advanceCount_dlong (hp up : Bool) (s : State) :
    (advanceCount hp up s).dlong = s.dlong := by unfold advanceCount; dsimp only; split <;> rfl
@[simp] theorem advanceCount_dirlvl (hp up : Bool) (s : State) :
    (advanceCount hp up s).dirlvl = s.dirlvl := by unfold advanceCount; dsimp only; split <;> rfl
@[simp] theorem advanceCount_enlvl (hp up : Bool) (s : State) :
    (advanceCount hp up s).enlvl = s.enlvl := by unfold advanceCount; dsimp only; split <;> rfl
@[simp] theorem advanceCount_result (hp up : Bool) (s : State) :
    (advanceCount hp up s).result = s.result := by unfold advanceCount; dsimp only; split <;> rfl
@[simp] theorem advanceCount_refused (hp up : Bool) (s : State) :
    (advanceCount hp up s).refused = s.refused := by unfold advanceCount; dsimp only; split <;> rfl
@[simp] theorem advanceCount_lastRefusal (hp up : Bool) (s : State) :
    (advanceCount hp up s).lastRefusal = s.lastRefusal := by unfold advanceCount; dsimp only; split <;> rfl
@[simp] theorem advanceCount_cfgIn (hp up : Bool) (s : State) :
    (advanceCount hp up s).cfgIn = s.cfgIn := by unfold advanceCount; dsimp only; split <;> rfl
@[simp] theorem advanceCount_pending (hp up : Bool) (s : State) :
    (advanceCount hp up s).pending = s.pending := by unfold advanceCount; dsimp only; split <;> rfl

@[simp] theorem advance_cfg (hp up : Bool) (s : State) :
    (advance hp up s).cfg = s.cfg := by unfold advance; split <;> simp
@[simp] theorem advance_maxV (hp up : Bool) (s : State) :
    (advance hp up s).maxV = s.maxV := by unfold advance; split <;> simp
@[simp] theorem advance_maxCode (hp up : Bool) (s : State) :
    (advance hp up s).maxCode = s.maxCode := by unfold advance; split <;> simp
@[simp] theorem advance_built (hp up : Bool) (s : State) :
    (advance hp up s).built = s.built := by unfold advance; split <;> simp
@[simp] theorem advance_enabled (hp up : Bool) (s : State) :
    (advance hp up s).enabled = s.enabled := by unfold advance; split <;> simp
@[simp] theorem advance_dir (hp up : Bool) (s : State) :
    (advance hp up s).dir = s.dir := by unfold advance; split <;> simp
@[simp] theorem advance_vel (hp up : Bool) (s : State) :
    (advance hp up s).vel = s.vel := by unfold advance; split <;> simp
@[simp] theorem advance_inc (hp up : Bool) (s : State) :
    (advance hp up s).inc = s.inc := by unfold advance; split <;> simp
@[simp] theorem advance_tps (hp up : Bool) (s : State) :
    (advance hp up s).tps = s.tps := by unfold advance; split <;> simp
@[simp] theorem advance_dtotal (hp up : Bool) (s : State) :
    (advance hp up s).dtotal = s.dtotal := by unfold advance; split <;> simp
@[simp] theorem advance_dlong (hp up : Bool) (s : State) :
    (advance hp up s).dlong = s.dlong := by unfold advance; split <;> simp
@[simp] theorem advance_dirlvl (hp up : Bool) (s : State) :
    (advance hp up s).dirlvl = s.dirlvl := by unfold advance; split <;> simp
@[simp] theorem advance_enlvl (hp up : Bool) (s : State) :
    (advance hp up s).enlvl = s.enlvl := by unfold advance; split <;> simp
@[simp] theorem advance_result (hp up : Bool) (s : State) :
    (advance hp up s).result = s.result := by unfold advance; split <;> simp
@[simp] theorem advance_refused (hp up : Bool) (s : State) :
    (advance hp up s).refused = s.refused := by unfold advance; split <;> simp
@[simp] theorem advance_lastRefusal (hp up : Bool) (s : State) :
    (advance hp up s).lastRefusal = s.lastRefusal := by unfold advance; split <;> simp
@[simp] theorem advance_cfgIn (hp up : Bool) (s : State) :
    (advance hp up s).cfgIn = s.cfgIn := by unfold advance; split <;> simp
@[simp] theorem advance_pending (hp up : Bool) (s : State) :
    (advance hp up s).pending = s.pending := by unfold advance; split <;> simp

@[simp] theorem tickOnce_cfg (s : State) : (tickOnce s).cfg = s.cfg := by unfold tickOnce; split <;> simp
@[simp] theorem tickOnce_maxV (s : State) : (tickOnce s).maxV = s.maxV := by unfold tickOnce; split <;> simp
@[simp] theorem tickOnce_maxCode (s : State) : (tickOnce s).maxCode = s.maxCode := by unfold tickOnce; split <;> simp
@[simp] theorem tickOnce_built (s : State) : (tickOnce s).built = s.built := by unfold tickOnce; split <;> simp
@[simp] theorem tickOnce_enabled (s : State) : (tickOnce s).enabled = s.enabled := by unfold tickOnce; split <;> simp
@[simp] theorem tickOnce_dir (s : State) : (tickOnce s).dir = s.dir := by unfold tickOnce; split <;> simp
@[simp] theorem tickOnce_vel (s : State) : (tickOnce s).vel = s.vel := by unfold tickOnce; split <;> simp
@[simp] theorem tickOnce_inc (s : State) : (tickOnce s).inc = s.inc := by unfold tickOnce; split <;> simp
@[simp] theorem tickOnce_tps (s : State) : (tickOnce s).tps = s.tps := by unfold tickOnce; split <;> simp
@[simp] theorem tickOnce_dtotal (s : State) : (tickOnce s).dtotal = s.dtotal := by unfold tickOnce; split <;> simp
@[simp] theorem tickOnce_dlong (s : State) : (tickOnce s).dlong = s.dlong := by unfold tickOnce; split <;> simp
@[simp] theorem tickOnce_dirlvl (s : State) : (tickOnce s).dirlvl = s.dirlvl := by unfold tickOnce; split <;> simp
@[simp] theorem tickOnce_enlvl (s : State) : (tickOnce s).enlvl = s.enlvl := by unfold tickOnce; split <;> simp
@[simp] theorem tickOnce_result (s : State) : (tickOnce s).result = s.result := by unfold tickOnce; split <;> simp
@[simp] theorem tickOnce_cfgIn (s : State) : (tickOnce s).cfgIn = s.cfgIn := by unfold tickOnce; split <;> simp
@[simp] theorem tickOnce_pending (s : State) : (tickOnce s).pending = s.pending := by unfold tickOnce; split <;> simp

@[simp] theorem accept_cfg (p : Presented) (rest : List Presented) (s : State) : (accept p rest s).cfg = s.cfg := rfl
@[simp] theorem accept_maxV (p : Presented) (rest : List Presented) (s : State) : (accept p rest s).maxV = s.maxV := rfl
@[simp] theorem accept_maxCode (p : Presented) (rest : List Presented) (s : State) : (accept p rest s).maxCode = s.maxCode := rfl
@[simp] theorem accept_built (p : Presented) (rest : List Presented) (s : State) : (accept p rest s).built = s.built := rfl
@[simp] theorem accept_enabled (p : Presented) (rest : List Presented) (s : State) : (accept p rest s).enabled = s.enabled := rfl
@[simp] theorem accept_dir (p : Presented) (rest : List Presented) (s : State) : (accept p rest s).dir = s.dir := rfl
@[simp] theorem accept_vel (p : Presented) (rest : List Presented) (s : State) : (accept p rest s).vel = s.vel := rfl
@[simp] theorem accept_inc (p : Presented) (rest : List Presented) (s : State) : (accept p rest s).inc = s.inc := rfl
@[simp] theorem accept_acc (p : Presented) (rest : List Presented) (s : State) : (accept p rest s).acc = s.acc := rfl
@[simp] theorem accept_tps (p : Presented) (rest : List Presented) (s : State) : (accept p rest s).tps = s.tps := rfl
@[simp] theorem accept_dtotal (p : Presented) (rest : List Presented) (s : State) : (accept p rest s).dtotal = s.dtotal := rfl
@[simp] theorem accept_dlong (p : Presented) (rest : List Presented) (s : State) : (accept p rest s).dlong = s.dlong := rfl
@[simp] theorem accept_dcount (p : Presented) (rest : List Presented) (s : State) : (accept p rest s).dcount = s.dcount := rfl
@[simp] theorem accept_tcnt (p : Presented) (rest : List Presented) (s : State) : (accept p rest s).tcnt = s.tcnt := rfl
@[simp] theorem accept_pos (p : Presented) (rest : List Presented) (s : State) : (accept p rest s).pos = s.pos := rfl
@[simp] theorem accept_pulse (p : Presented) (rest : List Presented) (s : State) : (accept p rest s).pulse = s.pulse := rfl
@[simp] theorem accept_dirlvl (p : Presented) (rest : List Presented) (s : State) : (accept p rest s).dirlvl = s.dirlvl := rfl
@[simp] theorem accept_enlvl (p : Presented) (rest : List Presented) (s : State) : (accept p rest s).enlvl = s.enlvl := rfl
@[simp] theorem accept_result (p : Presented) (rest : List Presented) (s : State) : (accept p rest s).result = s.result := rfl
@[simp] theorem accept_outlog (p : Presented) (rest : List Presented) (s : State) : (accept p rest s).outlog = s.outlog := rfl
@[simp] theorem accept_refused (p : Presented) (rest : List Presented) (s : State) : (accept p rest s).refused = s.refused := rfl
@[simp] theorem accept_lastRefusal (p : Presented) (rest : List Presented) (s : State) : (accept p rest s).lastRefusal = s.lastRefusal := rfl

@[simp] theorem bindConfig_built (c : Config) (s : State) : (bindConfig c s).built = s.built := rfl
@[simp] theorem bindConfig_enabled (c : Config) (s : State) : (bindConfig c s).enabled = s.enabled := rfl
@[simp] theorem bindConfig_dir (c : Config) (s : State) : (bindConfig c s).dir = s.dir := rfl
@[simp] theorem bindConfig_vel (c : Config) (s : State) : (bindConfig c s).vel = s.vel := rfl
@[simp] theorem bindConfig_inc (c : Config) (s : State) : (bindConfig c s).inc = s.inc := rfl
@[simp] theorem bindConfig_acc (c : Config) (s : State) : (bindConfig c s).acc = s.acc := rfl
@[simp] theorem bindConfig_tps (c : Config) (s : State) : (bindConfig c s).tps = s.tps := rfl
@[simp] theorem bindConfig_dtotal (c : Config) (s : State) : (bindConfig c s).dtotal = s.dtotal := rfl
@[simp] theorem bindConfig_dlong (c : Config) (s : State) : (bindConfig c s).dlong = s.dlong := rfl
@[simp] theorem bindConfig_dcount (c : Config) (s : State) : (bindConfig c s).dcount = s.dcount := rfl
@[simp] theorem bindConfig_tcnt (c : Config) (s : State) : (bindConfig c s).tcnt = s.tcnt := rfl
@[simp] theorem bindConfig_pos (c : Config) (s : State) : (bindConfig c s).pos = s.pos := rfl
@[simp] theorem bindConfig_pulse (c : Config) (s : State) : (bindConfig c s).pulse = s.pulse := rfl
@[simp] theorem bindConfig_dirlvl (c : Config) (s : State) : (bindConfig c s).dirlvl = s.dirlvl := rfl
@[simp] theorem bindConfig_enlvl (c : Config) (s : State) : (bindConfig c s).enlvl = s.enlvl := rfl
@[simp] theorem bindConfig_result (c : Config) (s : State) : (bindConfig c s).result = s.result := rfl
@[simp] theorem bindConfig_outlog (c : Config) (s : State) : (bindConfig c s).outlog = s.outlog := rfl
@[simp] theorem bindConfig_refused (c : Config) (s : State) : (bindConfig c s).refused = s.refused := rfl
@[simp] theorem bindConfig_lastRefusal (c : Config) (s : State) : (bindConfig c s).lastRefusal = s.lastRefusal := rfl
@[simp] theorem bindConfig_cfgIn (c : Config) (s : State) : (bindConfig c s).cfgIn = s.cfgIn := rfl
@[simp] theorem bindConfig_pending (c : Config) (s : State) : (bindConfig c s).pending = s.pending := rfl

@[simp] theorem resetRegisters_cfg (s : State) : (resetRegisters s).cfg = s.cfg := by simp [resetRegisters]
@[simp] theorem resetRegisters_maxV (s : State) : (resetRegisters s).maxV = s.maxV := by simp [resetRegisters]
@[simp] theorem resetRegisters_maxCode (s : State) : (resetRegisters s).maxCode = s.maxCode := by simp [resetRegisters]
@[simp] theorem resetRegisters_pulse (s : State) : (resetRegisters s).pulse = s.pulse := by simp [resetRegisters]
@[simp] theorem resetRegisters_dirlvl (s : State) : (resetRegisters s).dirlvl = s.dirlvl := by simp [resetRegisters]
@[simp] theorem resetRegisters_enlvl (s : State) : (resetRegisters s).enlvl = s.enlvl := by simp [resetRegisters]
@[simp] theorem resetRegisters_outlog (s : State) : (resetRegisters s).outlog = s.outlog := by simp [resetRegisters]
@[simp] theorem resetRegisters_refused (s : State) : (resetRegisters s).refused = s.refused := by simp [resetRegisters]
@[simp] theorem resetRegisters_lastRefusal (s : State) : (resetRegisters s).lastRefusal = s.lastRefusal := by simp [resetRegisters]
@[simp] theorem resetRegisters_cfgIn (s : State) : (resetRegisters s).cfgIn = s.cfgIn := by simp [resetRegisters]
@[simp] theorem resetRegisters_pending (s : State) : (resetRegisters s).pending = s.pending := by simp [resetRegisters]

@[simp] theorem resetPorts_cfg (s : State) : (resetPorts s).cfg = s.cfg := rfl
@[simp] theorem resetPorts_maxV (s : State) : (resetPorts s).maxV = s.maxV := rfl
@[simp] theorem resetPorts_maxCode (s : State) : (resetPorts s).maxCode = s.maxCode := rfl
@[simp] theorem resetPorts_built (s : State) : (resetPorts s).built = s.built := rfl
@[simp] theorem resetPorts_enabled (s : State) : (resetPorts s).enabled = s.enabled := rfl
@[simp] theorem resetPorts_dir (s : State) : (resetPorts s).dir = s.dir := rfl
@[simp] theorem resetPorts_vel (s : State) : (resetPorts s).vel = s.vel := rfl
@[simp] theorem resetPorts_inc (s : State) : (resetPorts s).inc = s.inc := rfl
@[simp] theorem resetPorts_acc (s : State) : (resetPorts s).acc = s.acc := rfl
@[simp] theorem resetPorts_tps (s : State) : (resetPorts s).tps = s.tps := rfl
@[simp] theorem resetPorts_dtotal (s : State) : (resetPorts s).dtotal = s.dtotal := rfl
@[simp] theorem resetPorts_dlong (s : State) : (resetPorts s).dlong = s.dlong := rfl
@[simp] theorem resetPorts_dcount (s : State) : (resetPorts s).dcount = s.dcount := rfl
@[simp] theorem resetPorts_tcnt (s : State) : (resetPorts s).tcnt = s.tcnt := rfl
@[simp] theorem resetPorts_pos (s : State) : (resetPorts s).pos = s.pos := rfl
@[simp] theorem resetPorts_result (s : State) : (resetPorts s).result = s.result := rfl
@[simp] theorem resetPorts_refused (s : State) : (resetPorts s).refused = s.refused := rfl
@[simp] theorem resetPorts_lastRefusal (s : State) : (resetPorts s).lastRefusal = s.lastRefusal := rfl
@[simp] theorem resetPorts_cfgIn (s : State) : (resetPorts s).cfgIn = s.cfgIn := rfl
@[simp] theorem resetPorts_pending (s : State) : (resetPorts s).pending = s.pending := rfl

@[simp] theorem constructed_refused (c : Config) (s : State) : (constructed c s).refused = s.refused := by simp [constructed]
@[simp] theorem constructed_lastRefusal (c : Config) (s : State) : (constructed c s).lastRefusal = s.lastRefusal := by simp [constructed]
@[simp] theorem constructed_cfgIn (c : Config) (s : State) : (constructed c s).cfgIn = s.cfgIn := by simp [constructed]
@[simp] theorem constructed_pending (c : Config) (s : State) : (constructed c s).pending = s.pending := by simp [constructed]

end Sys2Proof.Machine
end

