-- ==== Sys2Proof/Laws/Ops.lean ====
section
/-! SUPPORT. What each shared operation does, said once: the number functions of R10, the ports and their trace, and the
whole effect of each operation over the registers as one record. -/

namespace Sys2Proof.Machine

/-! ## Numbers -/

theorem code32_swrap (x : ℤ) : code32 (swrap 32 x) = BitVec.ofInt 32 x := by
  apply BitVec.eq_of_toInt_eq
  simp only [code32, swrap, BitVec.toInt_ofInt]
  rw [Int.bmod_def, Int.bmod_def]
  norm_num

theorem code32_toInt {x : ℤ} (hlo : -2147483648 ≤ x) (hhi : x ≤ 2147483647) : (code32 x).toInt = x := by
  simp only [code32, BitVec.toInt_ofInt]
  rw [Int.bmod_def]
  norm_num
  omega

theorem code32_toInt_self (w : Word) : code32 w.toInt = w := by simp [code32]

theorem sat_bounds (x : ℤ) : -2147483648 ≤ sat 32 x ∧ sat 32 x ≤ 2147483647 := by
  unfold sat; norm_num

theorem sat_of_fits {x : ℤ} (hlo : -2147483648 ≤ x) (hhi : x ≤ 2147483647) : sat 32 x = x := by
  unfold sat; norm_num; omega

theorem clamp_bounds {lo hi : ℤ} (h : lo ≤ hi) (x : ℤ) : lo ≤ clamp x lo hi ∧ clamp x lo hi ≤ hi := by
  unfold clamp; omega

theorem wrap_nonneg (w : ℕ) (x : ℤ) : 0 ≤ wrap w x := Int.emod_nonneg _ (by positivity)

theorem wrap_lt (w : ℕ) (x : ℤ) : wrap w x < 2 ^ w := Int.emod_lt_of_pos _ (by positivity)

theorem roundHalfUp_le_iff_lt (q : ℚ) (m : ℤ) : roundHalfUp q ≤ m ↔ q < m + 1 / 2 := by
  unfold roundHalfUp
  rw [← Int.lt_add_one_iff, Int.floor_lt]
  push_cast
  constructor <;> intro h <;> linarith

theorem le_roundHalfUp_iff_le (q : ℚ) (m : ℤ) : m ≤ roundHalfUp q ↔ (m : ℚ) - 1 / 2 ≤ q := by
  unfold roundHalfUp
  rw [Int.le_floor]
  constructor <;> intro h <;> linarith

theorem roundHalfUp_error (q : ℚ) : |(roundHalfUp q : ℚ) - q| ≤ 1 / 2 := by
  have h1 := Int.floor_le (q + 1 / 2)
  have h2 := Int.lt_floor_add_one (q + 1 / 2)
  unfold roundHalfUp
  rw [abs_le]
  constructor <;> linarith

theorem roundHA_error (q : ℚ) : |(roundHA q : ℚ) - q| ≤ 1 / 2 := by
  unfold roundHA
  split
  · have h1 := Int.floor_le (-q + 1 / 2)
    have h2 := Int.lt_floor_add_one (-q + 1 / 2)
    rw [abs_le]; push_cast
    constructor <;> linarith
  · exact roundHalfUp_error q

theorem roundHA_neg (q : ℚ) : roundHA (-q) = -roundHA q := by
  unfold roundHA
  rcases lt_trichotomy q 0 with h | h | h
  · rw [if_neg (by linarith), if_pos h]; simp
  · subst h; norm_num
  · rw [if_pos (by linarith), if_neg (by linarith)]; simp

/-! ## The output trace -/

theorem portLevel_append_one (p : Port) (log : List (Port × Level)) (e : Port × Level) :
    portLevel p (log ++ [e]) = if e.1 = p then some e.2 else portLevel p log := by
  induction log with
  | nil => simp [portLevel]
  | cons x xs ih =>
    simp only [List.cons_append, portLevel, ih]
    by_cases h : e.1 = p <;> simp [h]

theorem portLevel_append (p : Port) (log more : List (Port × Level)) :
    portLevel p (log ++ more) = (portLevel p more).or (portLevel p log) := by
  induction more generalizing log with
  | nil => simp [portLevel]
  | cons e more ih =>
    rw [show log ++ e :: more = (log ++ [e]) ++ more by simp, ih, portLevel_append_one]
    simp only [portLevel]
    cases portLevel p more <;> simp
    split <;> simp

@[simp] theorem risingEdges_append (log more : List (Port × Level)) :
    risingEdges (log ++ more) = risingEdges log + risingEdges more := by
  simp [risingEdges]

@[simp] theorem risingEdges_nil : risingEdges [] = 0 := rfl

@[simp] theorem risingEdges_rise : risingEdges [(.stepOut, true)] = 1 := rfl

@[simp] theorem risingEdges_fall : risingEdges [(.stepOut, false)] = 0 := rfl

@[simp] theorem risingEdges_dirOut (l : Level) : risingEdges [(.dirOut, l)] = 0 := by cases l <;> rfl

@[simp] theorem risingEdges_enOut (l : Level) : risingEdges [(.enOut, l)] = 0 := by cases l <;> rfl

@[simp] theorem out_outlog (p : Port) (l : Level) (s : State) : (out p l s).outlog = s.outlog ++ [(p, l)] := rfl

/-! ## Registers -/

@[simp] theorem refuse_refused (r : RefusalReason) (s : State) : (refuse r s).refused = true := rfl

@[simp] theorem refuse_lastRefusal (r : RefusalReason) (s : State) : (refuse r s).lastRefusal = some r := rfl

/-- Lowering: the pulse is low after it, and one event was logged if it was high. -/
theorem lowerPulse_eq (s : State) :
    lowerPulse s = { s with
      pulse := false
      outlog := s.outlog ++ (if s.pulse then [(.stepOut, false)] else []) } := by
  unfold lowerPulse
  by_cases h : s.pulse = true
  · simp [h, out]
  · rw [if_neg h, if_neg h, List.append_nil, ← Bool.not_eq_true _ |>.mp h]

@[simp] theorem lowerPulse_pulse (s : State) : (lowerPulse s).pulse = false := by rw [lowerPulse_eq]

@[simp] theorem lowerPulse_outlog (s : State) :
    (lowerPulse s).outlog = s.outlog ++ (if s.pulse then [(.stepOut, false)] else []) := by rw [lowerPulse_eq]

@[simp] theorem lowerPulse_risingEdges (s : State) : risingEdges (lowerPulse s).outlog = risingEdges s.outlog := by
  rw [lowerPulse_outlog]; split <;> simp

/-- Firing: the pulse rises, the edge is logged, and the position moves by one. -/
theorem fire_eq (up : Bool) (s : State) :
    fire up s = { s with
      pulse := true
      outlog := s.outlog ++ [(.stepOut, true)]
      pos := BitVec.ofInt 32 (s.pos.toInt + if up then 1 else -1) } := by
  simp only [fire, out, code32_swrap]

theorem fire_pos (up : Bool) (s : State) :
    (fire up s).pos = BitVec.ofInt 32 (s.pos.toInt + if up then 1 else -1) := by rw [fire_eq]

theorem fire_pos_word (up : Bool) (s : State) : (fire up s).pos = if up then s.pos + 1 else s.pos - 1 := by
  rw [fire_pos]
  cases up <;> simp [BitVec.ofInt_add, BitVec.sub_eq_add_neg, BitVec.ofInt_neg]

/-- Steps add up whatever the wraps between them (R86, R90). -/
theorem ofInt_toInt_add (x y : ℤ) : BitVec.ofInt 32 ((BitVec.ofInt 32 x).toInt + y) = BitVec.ofInt 32 (x + y) := by
  rw [BitVec.ofInt_add, BitVec.ofInt_add]
  congr 1
  apply BitVec.eq_of_toInt_eq
  simp

@[simp] theorem fire_pulse (up : Bool) (s : State) : (fire up s).pulse = true := rfl

@[simp] theorem fire_outlog (up : Bool) (s : State) : (fire up s).outlog = s.outlog ++ [(.stepOut, true)] := rfl

/-- The sentinel as the registers of the configured strategy see it (R65). -/
theorem writeTiming_sentinel (s : State) :
    writeTiming (sentinel s.cfg) s = { s with
      inc := if s.cfg.strategy = .a then 0 else s.inc
      tps := if s.cfg.strategy = .b then 2 ^ s.cfg.wt - 1 else s.tps
      dtotal := if s.cfg.strategy = .b then 1 else s.dtotal
      dlong := if s.cfg.strategy = .b then 0 else s.dlong } := by
  rcases h : s.cfg.strategy <;> simp [sentinel, writeTiming, h]

theorem writeDcount_eq (v : ℕ) (s : State) :
    writeDcount v s = { s with dcount := if s.cfg.strategy = .b then v else s.dcount } := by
  rcases h : s.cfg.strategy <;> simp [writeDcount, h]

theorem clearSubStep_eq (s : State) :
    clearSubStep s = { s with
      acc := if s.cfg.strategy = .a then 0 else s.acc
      tcnt := if s.cfg.strategy = .b then 0 else s.tcnt
      dcount := if s.cfg.strategy = .b then 0 else s.dcount } := by
  rcases h : s.cfg.strategy <;> simp [clearSubStep, h]

theorem holdStopped_eq (s : State) :
    holdStopped s = { s with tcnt := if s.cfg.strategy = .b then 0 else s.tcnt } := by
  rcases h : s.cfg.strategy <;> simp [holdStopped, h]

/-- Forcing Stopped: the direction, the sentinel and the dither position of the configured strategy. -/
theorem stopMotor_eq (s : State) :
    stopMotor s = { s with
      dir := .stopped
      inc := if s.cfg.strategy = .a then 0 else s.inc
      tps := if s.cfg.strategy = .b then 2 ^ s.cfg.wt - 1 else s.tps
      dtotal := if s.cfg.strategy = .b then 1 else s.dtotal
      dlong := if s.cfg.strategy = .b then 0 else s.dlong
      dcount := if s.cfg.strategy = .b then 0 else s.dcount } := by
  rcases h : s.cfg.strategy <;> simp [stopMotor, sentinel, writeTiming, writeDcount, h]

@[simp] theorem stopMotor_dir (s : State) : (stopMotor s).dir = .stopped := by rw [stopMotor_eq]

/-- The direction output: it stands at the required level after it, with one event logged on a change and none
otherwise; a direction that requires no level changes nothing. -/
theorem driveDirOut_eq (d : Dir) (s : State) :
    driveDirOut d s =
      let level : Level := match d with
        | .positive => s.cfg.dPol
        | .negative => !s.cfg.dPol
        | .stopped => s.dirlvl
        | .reserved => s.dirlvl
      { s with
        dirlvl := level
        outlog := s.outlog ++ (if level = s.dirlvl then [] else [(.dirOut, level)]) } := by
  cases d <;> simp only [driveDirOut] <;> try split
  all_goals simp_all [out]

@[simp] theorem driveDirOut_stopped (s : State) : driveDirOut .stopped s = s := rfl

@[simp] theorem driveDirOut_reserved (s : State) : driveDirOut .reserved s = s := rfl

theorem driveDirOut_risingEdges (d : Dir) (s : State) :
    risingEdges (driveDirOut d s).outlog = risingEdges s.outlog := by
  cases d <;> rw [driveDirOut_eq] <;> dsimp only <;> rw [risingEdges_append] <;> split <;> simp

/-- An overwrite of the position: `POS` and the sub-step state of the configured strategy. -/
theorem overwritePosition_eq (n : ℤ) (s : State) :
    overwritePosition n s = { s with
      pos := code32 n
      acc := if s.cfg.strategy = .a then 0 else s.acc
      tcnt := if s.cfg.strategy = .b then 0 else s.tcnt
      dcount := if s.cfg.strategy = .b then 0 else s.dcount } := by
  simp only [overwritePosition, clearSubStep_eq]

/-! ## Commands -/

/-- Every command completes: `exec` always answers a next state (R111). -/
theorem exec_next (i : Instr) (s : State) : ∃ t, exec i s = .next t := by
  cases i <;> exact ⟨_, rfl⟩

theorem exec_tick (s : State) : exec .tick s = .next (tickOnce s) := rfl

theorem exec_setvel (opd : Word) (s : State) :
    exec (.setvel opd) s = .next (if s.dir = .reserved then refuse .reservedDirection s else setVelocity opd s) := rfl

/-- `SETVEL` by cases: a reserved direction is refused, any other is given its effect. -/
theorem setvel_cases {opd : Word} {s t : State} (h : exec (.setvel opd) s = .next t) :
    (s.dir = .reserved ∧ t = refuse .reservedDirection s) ∨ (s.dir ≠ .reserved ∧ t = setVelocity opd s) := by
  rw [exec_setvel, Host.Outcome.next.injEq] at h
  by_cases hd : s.dir = .reserved
  · exact .inl ⟨hd, by rw [← h, if_pos hd]⟩
  · exact .inr ⟨hd, by rw [← h, if_neg hd]⟩

theorem exec_setpos (opd : Word) (s : State) : exec (.setpos opd) s = .next (overwritePosition (sint opd) s) := rfl

theorem exec_setposd (opd : Word) (s : State) :
    exec (.setposd opd) s = .next (overwritePosition (distanceToSteps s.cfg.spd opd) s) := rfl

theorem exec_getvel (s : State) : exec .getvel s = .next { s with result := s.vel } := rfl

theorem exec_getpos (s : State) : exec .getpos s = .next { s with result := s.pos } := rfl

theorem exec_getposd (s : State) :
    exec .getposd s = .next { s with result := code32 (stepsToDistance s.cfg.spd s.pos.toInt) } := rfl

theorem exec_enable (s : State) :
    exec .enable s = .next (stopMotor (driveEnOut s.cfg.enActive { s with enabled := true })) := rfl

theorem exec_disable (s : State) :
    exec .disable s = .next (stopMotor (driveEnOut (!s.cfg.enActive) (lowerPulse { s with enabled := false }))) := rfl

theorem exec_construct (s : State) :
    exec .construct s = .next (if legalConfig s.cfgIn then constructed s.cfgIn s else refuse .illFormedConfig s) := rfl

/-- `CONSTRUCT` by cases: a legal record, or a refusal (R113, R124). -/
theorem construct_cases {s t : State} (h : exec .construct s = .next t) :
    (legalConfig s.cfgIn = true ∧ t = constructed s.cfgIn s) ∨
    (legalConfig s.cfgIn = false ∧ t = refuse .illFormedConfig s) := by
  rw [exec_construct, Host.Outcome.next.injEq] at h
  subst h
  rcases hl : legalConfig s.cfgIn
  · exact .inr ⟨rfl, by simp⟩
  · exact .inl ⟨rfl, by simp⟩

/-- The constructed block as one record (R124). -/
theorem constructed_eq (c : Config) (s : State) :
    constructed c s = { s with
      cfg := c
      maxV := maxVOf c
      maxCode := maxCodeOf (maxVOf c)
      built := true
      enabled := false
      dir := .stopped
      vel := 0
      pos := 0
      result := 0
      inc := if c.strategy = .a then 0 else s.inc
      acc := if c.strategy = .a then 0 else s.acc
      tps := if c.strategy = .b then 2 ^ c.wt - 1 else s.tps
      dtotal := if c.strategy = .b then 1 else s.dtotal
      dlong := if c.strategy = .b then 0 else s.dlong
      dcount := if c.strategy = .b then 0 else s.dcount
      tcnt := if c.strategy = .b then 0 else s.tcnt
      pulse := false
      dirlvl := false
      enlvl := !c.enActive
      outlog := s.outlog ++ [(.stepOut, false), (.dirOut, false), (.enOut, !c.enActive)] } := by
  cases h : c.strategy <;>
    simp [constructed, resetPorts, resetRegisters, bindConfig, driveEnOut, out, clearSubStep_eq, writeTiming, sentinel, h]

/-- No command touches the commands still to come or the side input. -/
theorem exec_sameInputs {i : Instr} {s t : State} (h : exec i s = .next t) : sameInputs s t := by
  cases i
  case construct => obtain ⟨-, rfl⟩ | ⟨-, rfl⟩ := construct_cases h <;> simp [sameInputs]
  case setvel => obtain ⟨-, rfl⟩ | ⟨-, rfl⟩ := setvel_cases h <;> simp [sameInputs]
  all_goals
    simp only [exec_enable, exec_disable, exec_getvel, exec_getpos, exec_getposd, exec_setpos,
      exec_setposd, exec_tick, Host.Outcome.next.injEq] at h
    subst h
    simp [sameInputs]

/-- Only a tick fires a step. -/
theorem risingEdges_of_ne_tick {i : Instr} {s t : State} (hi : i ≠ .tick) (h : exec i s = .next t) :
    risingEdges t.outlog = risingEdges s.outlog := by
  cases i
  case tick => exact absurd rfl hi
  case construct =>
    obtain ⟨-, rfl⟩ | ⟨-, rfl⟩ := construct_cases h
    · rw [constructed_eq]; dsimp only; cases s.cfgIn.enActive <;> simp <;> rfl
    · rfl
  case setvel opd =>
    obtain ⟨-, rfl⟩ | ⟨-, rfl⟩ := setvel_cases h
    · rfl
    · unfold setVelocity commitVelocity; dsimp only
      simp [driveDirOut_risingEdges]
  case enable =>
    rw [exec_enable, stopMotor_eq, Host.Outcome.next.injEq] at h; subst h; simp [driveEnOut]
  case disable =>
    rw [exec_disable, stopMotor_eq, Host.Outcome.next.injEq] at h; subst h
    simp only [driveEnOut, out_outlog, risingEdges_append, risingEdges_enOut, lowerPulse_risingEdges, Nat.add_zero]
  all_goals
    simp only [exec_getvel, exec_getpos, exec_getposd, exec_setpos, exec_setposd, Host.Outcome.next.injEq] at h
    subst h
    simp

/-- Commands run one after the other. -/
theorem execAll_append (xs ys : List Instr) (s t : State) (h : execAll xs s = .next t) :
    execAll (xs ++ ys) s = execAll ys t := by
  induction xs generalizing s with
  | nil => simp only [execAll, Host.Outcome.next.injEq] at h; subst h; rfl
  | cons i rest ih =>
    obtain ⟨u, hu⟩ := exec_next i s
    simp only [execAll, List.cons_append, hu] at h ⊢
    exact ih u h

theorem execAll_next (is : List Instr) (s : State) : ∃ t, execAll is s = .next t := by
  induction is generalizing s with
  | nil => exact ⟨s, rfl⟩
  | cons i rest ih =>
    obtain ⟨u, hu⟩ := exec_next i s
    simp only [execAll, hu]
    exact ih u

/-- An induction over a run, packaged once: what holds at the start and every command keeps holds at the end. -/
theorem execAll_keeps {P : State → Prop} {allowed : Instr → Prop}
    (keep : ∀ i s t, allowed i → P s → exec i s = .next t → P t)
    (is : List Instr) (s t : State) (hs : P s) (hall : ∀ i ∈ is, allowed i) (h : execAll is s = .next t) : P t := by
  induction is generalizing s with
  | nil => simp only [execAll, Host.Outcome.next.injEq] at h; exact h ▸ hs
  | cons i rest ih =>
    obtain ⟨u, hu⟩ := exec_next i s
    simp only [execAll, hu] at h
    exact ih u (keep i s u (hall i (by simp)) hs hu) (fun j hj => hall j (by simp [hj])) h

end Sys2Proof.Machine
end

