-- ==== Sys2Proof/Laws/PerInstr.lean ====
section
/-! SUPPORT. The family `Encoding`: of every instruction as syntax, that its word carries its opcode and operand in the
fields of R51, that it is well formed by WellFormed.lean's own lists, and that its issuer may issue it. -/

namespace Sys2Proof.Laws.Encoding

/-- What the word of an instruction is. -/
def Statement (i : Instr) : Prop :=
  opcOf (encode i) = opcode i ∧ opdOf (encode i) = operand i ∧
  (commandOf (encode i)).wellFormed = true ∧ (commandOf (encode i)).issuedBy (issuer i) = true

theorem construct : Statement .construct := by unfold Statement; decide
theorem enable : Statement .enable := by unfold Statement; decide
theorem disable : Statement .disable := by unfold Statement; decide
theorem setvel (opd : Word) : Statement (.setvel opd) := by
  simp [Statement, commandOf, Command.wellFormed, Command.hasDefinedOpcode, Command.hasLegalOperand, Command.issuedBy,
    definedOpcodes, zFormatOpcodes, opcode, issuer]
theorem getvel : Statement .getvel := by unfold Statement; decide
theorem setpos (opd : Word) : Statement (.setpos opd) := by
  simp [Statement, commandOf, Command.wellFormed, Command.hasDefinedOpcode, Command.hasLegalOperand, Command.issuedBy,
    definedOpcodes, zFormatOpcodes, opcode, issuer]
theorem setposd (opd : Word) : Statement (.setposd opd) := by
  simp [Statement, commandOf, Command.wellFormed, Command.hasDefinedOpcode, Command.hasLegalOperand, Command.issuedBy,
    definedOpcodes, zFormatOpcodes, opcode, issuer]
theorem getpos : Statement .getpos := by unfold Statement; decide
theorem getposd : Statement .getposd := by unfold Statement; decide
theorem tick : Statement .tick := by unfold Statement; decide

end Sys2Proof.Laws.Encoding
end

