-- ==== Sys2Proof/Laws/RateConverter.lean ====
section
/-! SUPPORT. The rate converter and the commit of `SETVEL`: the commit as one record, the result of the converter by
cases, and the bounds of its parts that later proofs cite. -/

namespace Sys2Proof.Machine

/-- The legality of a configuration as a conjunction (R8). -/
theorem legalConfig_iff (c : Config) :
    legalConfig c = true ↔
      1 ≤ c.tickRateHz ∧ 0 < c.spd ∧ 1 ≤ c.u ∧ 4 ≤ c.kB ∧ c.kB ≤ 8 ∧ 0 < c.vStop ∧ 0 < c.eps ∧ c.eps ≤ 1 / 8 ∧
      1 / c.eps ≤ 2 ^ c.wt - 2 ∧ 2 ≤ c.n ∧ 8 ≤ c.wt ∧ 1 ≤ c.aw := by
  simp only [legalConfig, Bool.and_eq_true, decide_eq_true_eq, and_assoc]

/-- The commit on strategy A's TimingParameter. -/
theorem commitVelocity_phase (c : ℤ) (d : Dir) (inc : ℕ) (s : State) (h : s.cfg.strategy = .a) :
    commitVelocity c d (.phase inc) s = { s with
      vel := code32 c
      dir := d
      dirlvl := (driveDirOut d s).dirlvl
      outlog := (driveDirOut d s).outlog
      inc := inc } := by
  simp only [commitVelocity, writeTiming, writeDcount_eq, driveDirOut_eq, h]
  rfl

/-- The commit on strategy B's TimingParameter (R79). -/
theorem commitVelocity_interval (c : ℤ) (d : Dir) (tps dtotal dlong : ℕ) (s : State) (h : s.cfg.strategy = .b) :
    commitVelocity c d (.interval tps dtotal dlong) s = { s with
      vel := code32 c
      dir := d
      dirlvl := (driveDirOut d s).dirlvl
      outlog := (driveDirOut d s).outlog
      tps := tps
      dtotal := dtotal
      dlong := dlong
      dcount := s.dcount % dtotal } := by
  simp only [commitVelocity, writeTiming, writeDcount_eq, driveDirOut_eq, h]
  rfl

/-- Whether the converter stops (R63). -/
theorem stops_iff (enabled : Bool) (vStop a : ℚ) : stops enabled vStop a = true ↔ enabled = false ∨ a < vStop := by
  simp [stops]

/-- The converter's result, by cases (R63, R64). -/
theorem convert_cases (cfg : Config) (enabled : Bool) (c : ℤ) :
    ((enabled = false ∨ magnitude c < cfg.vStop) ∧ convert cfg enabled c = (.stopped, sentinel cfg)) ∨
    (enabled = true ∧ cfg.vStop ≤ magnitude c ∧
      convert cfg enabled c = (if 0 < c then .positive else .negative, runningTiming cfg (magnitude c))) := by
  unfold convert
  by_cases h : stops enabled cfg.vStop (magnitude c) = true
  · rw [if_pos h]; exact .inl ⟨(stops_iff _ _ _).mp h, rfl⟩
  · rw [if_neg h]
    rw [stops_iff, not_or, not_lt, Bool.not_eq_false] at h
    exact .inr ⟨h.1, h.2, rfl⟩

theorem tickRate_pos {c : Config} (h : legalConfig c = true) : (0 : ℚ) < c.tickRateHz * c.u := by
  obtain ⟨h1, -, h3, -⟩ := (legalConfig_iff c).mp h
  have : (1 : ℚ) ≤ c.tickRateHz := by exact_mod_cast h1
  have : (1 : ℚ) ≤ c.u := by exact_mod_cast h3
  positivity

theorem maxVA_pos {c : Config} (h : legalConfig c = true) : 0 < maxVA c := by
  have h1 := tickRate_pos h
  obtain ⟨-, h2, -⟩ := (legalConfig_iff c).mp h
  unfold maxVA Config.kA; positivity

theorem maxVB_pos {c : Config} (h : legalConfig c = true) : 0 < maxVB c := by
  have h1 := tickRate_pos h
  obtain ⟨-, h2, -, h4, -⟩ := (legalConfig_iff c).mp h
  have : (0 : ℚ) < c.kB := by exact_mod_cast (by omega : 0 < c.kB)
  unfold maxVB; positivity

theorem maxVOf_pos {c : Config} (h : legalConfig c = true) : 0 < maxVOf c := by
  unfold maxVOf; split
  · exact maxVA_pos h
  · exact maxVB_pos h

/-- `MAXCODE` is a non-negative code (R61). -/
theorem maxCodeOf_bounds {v : ℚ} (h : 0 ≤ v) : 0 ≤ maxCodeOf v ∧ maxCodeOf v ≤ 2147483647 := by
  unfold maxCodeOf
  have : (0 : ℤ) ≤ ⌊v * 2 ^ Config.fv⌋ := Int.floor_nonneg.mpr (by positivity)
  norm_num; omega

/-- The value of a code within `±MAXCODE` does not exceed `MAXV` (R61, R62). -/
theorem magnitude_le_of_le_maxCode {v : ℚ} {c : ℤ} (h : |c| ≤ maxCodeOf v) : magnitude c ≤ v := by
  have h1 : (|c| : ℤ) ≤ ⌊v * 2 ^ Config.fv⌋ := le_trans h (min_le_left _ _)
  have h2 : ((|c| : ℤ) : ℚ) ≤ v * 2 ^ Config.fv := Int.le_floor.mp h1
  unfold magnitude fxValue
  rwa [div_le_iff₀ (by unfold Config.fv; positivity)]

theorem magnitude_nonneg (c : ℤ) : 0 ≤ magnitude c := by
  unfold magnitude fxValue
  have : (0 : ℚ) ≤ ((|c| : ℤ) : ℚ) := by exact_mod_cast abs_nonneg c
  positivity

theorem clampVelocity_bounds {m : ℤ} (h : 0 ≤ m) (opd : Word) :
    -m ≤ clampVelocity m opd ∧ clampVelocity m opd ≤ m := clamp_bounds (by omega) _

/-- A cycle length is at least 1, whatever its addend (R73, R74). -/
theorem cycleLength_pos (eps addend : ℚ) : 1 ≤ cycleLength eps addend := by
  unfold cycleLength; omega

/-- With an addend from 0 to 1/2 a cycle has at least two intervals and at most `round(1/EPS)` (R75). -/
theorem cycleLength_bounds {eps addend : ℚ} (he : 0 < eps) (he' : eps ≤ 1 / 8) (h0 : 0 ≤ addend) (h1 : addend ≤ 1 / 2) :
    2 ≤ cycleLength eps addend ∧ (cycleLength eps addend : ℤ) ≤ roundHalfUp (1 / eps) := by
  have hlow : (2 : ℤ) ≤ roundHalfUp (1 / (addend + eps)) := by
    rw [le_roundHalfUp_iff_le]
    push_cast
    rw [le_div_iff₀ (by linarith)]
    linarith
  have hhigh : roundHalfUp (1 / (addend + eps)) ≤ roundHalfUp (1 / eps) := by
    unfold roundHalfUp
    apply Int.floor_le_floor
    have : 1 / (addend + eps) ≤ 1 / eps := one_div_le_one_div_of_le he (by linarith)
    linarith
  unfold cycleLength
  constructor <;> omega

/-- A counter register of `WT ≥ 8` bits has at least 256 values (R7). -/
theorem two_pow_wt_ge {c : Config} (h : legalConfig c = true) : 256 ≤ 2 ^ c.wt := by
  obtain ⟨-, -, -, -, -, -, -, -, -, -, h8, -⟩ := (legalConfig_iff c).mp h
  calc 256 = 2 ^ 8 := by norm_num
    _ ≤ 2 ^ c.wt := Nat.pow_le_pow_right (by norm_num) h8

/-- The ideal interval of a magnitude up to `MAXV_B` is at least `K_B` ticks (R70). -/
theorem kB_le_floor_ideal {c : Config} {a : ℚ} (h : legalConfig c = true) (ha : 0 < a) (ha' : a ≤ maxVB c) :
    (c.kB : ℤ) ≤ ⌊idealInterval c a⌋ := by
  have h1 := tickRate_pos h
  obtain ⟨-, h2, -, h4, -⟩ := (legalConfig_iff c).mp h
  have hk : (0 : ℚ) < c.kB := by exact_mod_cast (by omega : 0 < c.kB)
  rw [Int.le_floor]
  unfold idealInterval
  unfold maxVB at ha'
  rw [le_div_iff₀ (by positivity)] at ha' ⊢
  push_cast
  linarith

/-- The interval and its schedule by cases: saturated, long interval rare, short interval rare (R71, R73, R74). -/
theorem dither_cases (c : Config) (a : ℚ) :
    let ideal := idealInterval c a
    let off := ideal - ⌊ideal⌋
    (2 ^ c.wt - 2 < ⌊ideal⌋ ∧ dither c a = (2 ^ c.wt - 2, 1, 0)) ∨
    (⌊ideal⌋ ≤ 2 ^ c.wt - 2 ∧ off < 1 / 2 ∧ dither c a = (⌊ideal⌋.toNat, cycleLength c.eps off, 1)) ∨
    (⌊ideal⌋ ≤ 2 ^ c.wt - 2 ∧ 1 / 2 ≤ off ∧
      dither c a = (⌊ideal⌋.toNat, cycleLength c.eps (1 - off), cycleLength c.eps (1 - off) - 1)) := by
  unfold dither
  dsimp only
  split
  · exact .inl ⟨‹_›, rfl⟩
  · split
    · exact .inr (.inl ⟨by omega, ‹_›, rfl⟩)
    · exact .inr (.inr ⟨by omega, not_lt.mp ‹_›, rfl⟩)

/-- The registers the interval and its schedule fill, in the ranges of R24 and R25. -/
theorem dither_ranges {c : Config} {a : ℚ} (h : legalConfig c = true) (ha : 0 < a) (ha' : a ≤ maxVB c) :
    c.kB ≤ (dither c a).1 ∧ (dither c a).1 ≤ 2 ^ c.wt - 2 ∧
    1 ≤ (dither c a).2.1 ∧ (dither c a).2.1 ≤ 2 ^ c.wt - 2 ∧ (dither c a).2.2 ≤ (dither c a).2.1 := by
  have hb := two_pow_wt_ge h
  have hf := kB_le_floor_ideal h ha ha'
  obtain ⟨-, -, -, hk4, hk8, -, he, he8, hew, -⟩ := (legalConfig_iff c).mp h
  have hp : ((2 ^ c.wt : ℕ) : ℤ) = (2 : ℤ) ^ c.wt := by push_cast; rfl
  have hround : roundHalfUp (1 / c.eps) ≤ 2 ^ c.wt - 2 := by
    rw [roundHalfUp_le_iff_lt]; push_cast; linarith
  have hcyc : ∀ x : ℚ, 0 ≤ x → x ≤ 1 / 2 → 1 ≤ cycleLength c.eps x ∧ cycleLength c.eps x ≤ 2 ^ c.wt - 2 := by
    intro x h0 h1
    have := cycleLength_bounds he he8 h0 h1
    omega
  have f1 := Int.floor_le (idealInterval c a)
  have f2 := Int.lt_floor_add_one (idealInterval c a)
  obtain ⟨h1, e⟩ | ⟨h1, h2, e⟩ | ⟨h1, h2, e⟩ := dither_cases c a <;> rw [e] <;> dsimp only
  · omega
  · have := hcyc (idealInterval c a - ⌊idealInterval c a⌋) (by linarith) (by linarith)
    omega
  · have := hcyc (1 - (idealInterval c a - ⌊idealInterval c a⌋)) (by linarith) (by linarith)
    omega

end Sys2Proof.Machine
end

