-- ==== Sys2Proof/Laws/Scheduler.lean ====
section
/-! SUPPORT. The tick: what it does in each direction, and each strategy's advance by cases. -/

namespace Sys2Proof.Machine

theorem tickOnce_stopped {s : State} (h : s.dir = .stopped) : tickOnce s = holdStopped (lowerPulse s) := by
  simp [tickOnce, h]

theorem tickOnce_positive {s : State} (h : s.dir = .positive) : tickOnce s = advance s.pulse true (lowerPulse s) := by
  simp [tickOnce, h]

theorem tickOnce_negative {s : State} (h : s.dir = .negative) : tickOnce s = advance s.pulse false (lowerPulse s) := by
  simp [tickOnce, h]

theorem tickOnce_reserved {s : State} (h : s.dir = .reserved) : tickOnce s = refuse .reservedDirection s := by
  simp [tickOnce, h]

/-- A tick by its direction, once for every proof about ticks. -/
theorem tickOnce_cases (s : State) :
    (s.dir = .stopped ∧ tickOnce s = holdStopped (lowerPulse s)) ∨
    (s.dir = .reserved ∧ tickOnce s = refuse .reservedDirection s) ∨
    ∃ up, s.dir = (if up then .positive else .negative) ∧ tickOnce s = advance s.pulse up (lowerPulse s) := by
  rcases h : s.dir
  · exact .inl ⟨rfl, tickOnce_stopped h⟩
  · exact .inr (.inr ⟨true, rfl, tickOnce_positive h⟩)
  · exact .inr (.inr ⟨false, rfl, tickOnce_negative h⟩)
  · exact .inr (.inl ⟨rfl, tickOnce_reserved h⟩)

theorem tickOnce_running {s : State} {up : Bool} (h : s.dir = (if up then .positive else .negative)) :
    tickOnce s = advance s.pulse up (lowerPulse s) := by
  cases up
  · exact tickOnce_negative h
  · exact tickOnce_positive h

/-- Strategy A's advance by cases: a deferred wrap, a wrap that fires, no wrap (R84, R87). -/
theorem advancePhase_cases (hp up : Bool) (s : State) :
    (wrapped up s.acc (nextPhase up s) = true ∧ hp = true ∧ advancePhase hp up s = s) ∨
    (wrapped up s.acc (nextPhase up s) = true ∧ hp = false ∧
      advancePhase hp up s = fire up { s with acc := nextPhase up s }) ∨
    (wrapped up s.acc (nextPhase up s) = false ∧ advancePhase hp up s = { s with acc := nextPhase up s }) := by
  unfold advancePhase
  rcases hw : wrapped up s.acc (nextPhase up s) <;> rcases hp <;> simp [hw]

/-- Strategy B's advance by cases: the target reached with the pulse low fires; otherwise the count is stored (R85,
R87). -/
theorem advanceCount_cases (hp up : Bool) (s : State) :
    (target s ≤ nextCount s ∧ hp = false ∧
      advanceCount hp up s = fire up { s with tcnt := 0, dcount := (s.dcount + 1) % s.dtotal }) ∨
    ((nextCount s < target s ∨ hp = true) ∧ advanceCount hp up s = { s with tcnt := nextCount s }) := by
  unfold advanceCount
  by_cases h : target s ≤ nextCount s
  · rcases hp
    · exact .inl ⟨h, rfl, by simp [h]⟩
    · exact .inr ⟨.inr rfl, by simp⟩
  · exact .inr ⟨.inl (by omega), by simp [h]⟩

theorem nextPhase_lt (up : Bool) (s : State) : nextPhase up s < 2 ^ s.cfg.n := by
  have h := wrap_lt s.cfg.n (if up then (s.acc : ℤ) + s.inc else (s.acc : ℤ) - s.inc)
  have h0 := wrap_nonneg s.cfg.n (if up then (s.acc : ℤ) + s.inc else (s.acc : ℤ) - s.inc)
  have : ((nextPhase up s : ℕ) : ℤ) < ((2 ^ s.cfg.n : ℕ) : ℤ) := by
    unfold nextPhase; rw [Int.toNat_of_nonneg h0]; exact_mod_cast h
  exact_mod_cast this

/-- The accumulator of a Positive tick: the plain sum below `2^N`, and the sum less `2^N` from there on (R84). -/
theorem nextPhase_up {s : State} (hacc : s.acc < 2 ^ s.cfg.n) (hinc : s.inc ≤ 2 ^ s.cfg.n) :
    nextPhase true s = if s.acc + s.inc < 2 ^ s.cfg.n then s.acc + s.inc else s.acc + s.inc - 2 ^ s.cfg.n := by
  have e : (nextPhase true s : ℕ) = (s.acc + s.inc) % 2 ^ s.cfg.n := by
    have h0 := wrap_nonneg s.cfg.n ((s.acc : ℤ) + s.inc)
    unfold nextPhase wrap at *
    rw [if_pos rfl]
    apply Int.ofNat_inj.mp
    rw [Int.toNat_of_nonneg h0]; push_cast; rfl
  rw [e]
  split
  · exact Nat.mod_eq_of_lt ‹_›
  · rw [Nat.mod_eq_sub_mod (by omega), Nat.mod_eq_of_lt (by omega)]

/-- The accumulator of a Negative tick: the plain difference where it is not negative, `2^N` more otherwise (R84). -/
theorem nextPhase_down {s : State} (hacc : s.acc < 2 ^ s.cfg.n) (hinc : s.inc ≤ 2 ^ s.cfg.n) :
    nextPhase false s = if s.inc ≤ s.acc then s.acc - s.inc else s.acc + 2 ^ s.cfg.n - s.inc := by
  have hp : ((2 ^ s.cfg.n : ℕ) : ℤ) = (2 : ℤ) ^ s.cfg.n := by push_cast; rfl
  unfold nextPhase wrap
  rw [if_neg (by simp), ← hp]
  split
  · rw [Int.emod_eq_of_lt (by omega) (by omega)]; omega
  · rw [← Int.add_emod_right, Int.emod_eq_of_lt (by omega) (by omega)]; omega

theorem advance_phase (hp up : Bool) {s : State} (h : s.cfg.strategy = .a) :
    advance hp up s = advancePhase hp up s := by simp [advance, h]

theorem advance_count (hp up : Bool) {s : State} (h : s.cfg.strategy = .b) :
    advance hp up s = advanceCount hp up s := by simp [advance, h]

@[simp] theorem nextPhase_lowerPulse (up : Bool) (s : State) : nextPhase up (lowerPulse s) = nextPhase up s := by
  simp [nextPhase]

@[simp] theorem nextCount_lowerPulse (s : State) : nextCount (lowerPulse s) = nextCount s := by simp [nextCount]

@[simp] theorem target_lowerPulse (s : State) : target (lowerPulse s) = target s := by simp [target, isLong]

/-- A Positive wrap is the sum reaching `2^N` (R84). -/
theorem wrapped_up {s : State} (hacc : s.acc < 2 ^ s.cfg.n) (hinc : s.inc < 2 ^ s.cfg.n) :
    wrapped true s.acc (nextPhase true s) = decide (2 ^ s.cfg.n ≤ s.acc + s.inc) := by
  rw [nextPhase_up hacc hinc.le]
  unfold wrapped
  rw [if_pos rfl, decide_eq_decide]
  split <;> omega

/-- A Negative wrap is the difference falling below 0 (R84). -/
theorem wrapped_down {s : State} (hacc : s.acc < 2 ^ s.cfg.n) (hinc : s.inc < 2 ^ s.cfg.n) :
    wrapped false s.acc (nextPhase false s) = decide (s.acc < s.inc) := by
  rw [nextPhase_down hacc hinc.le]
  unfold wrapped
  rw [if_neg (by simp), decide_eq_decide]
  split <;> omega

/-- What a tick does to the trace, the pulse and the position: it lowers a high pulse and moves nothing, or, from a low
pulse and running, it fires. -/
theorem tickOnce_lowers_or_fires {s : State} (hd : s.dir ≠ .reserved) :
    ((tickOnce s).outlog = s.outlog ++ (if s.pulse then [(.stepOut, false)] else []) ∧ (tickOnce s).pos = s.pos ∧
      (tickOnce s).pulse = false) ∨
    (s.pulse = false ∧ s.dir ≠ .stopped ∧ (tickOnce s).outlog = s.outlog ++ [(.stepOut, true)] ∧
      (tickOnce s).pulse = true ∧ (tickOnce s).pos = BitVec.ofInt 32 (s.pos.toInt + stepSign s.dir)) := by
  obtain ⟨-, e⟩ | ⟨h, -⟩ | ⟨up, h, e⟩ := tickOnce_cases s
  · left; rw [e]; simp
  · exact absurd h hd
  · have hs : stepSign s.dir = if up then 1 else -1 := by rw [h]; cases up <;> rfl
    have hns : s.dir ≠ .stopped := by rw [h]; cases up <;> simp
    rw [e]
    cases hc : s.cfg.strategy
    · rw [advance_phase _ _ (by simpa using hc)]
      obtain ⟨-, -, h⟩ | ⟨-, h1, h⟩ | ⟨-, h⟩ := advancePhase_cases s.pulse up (lowerPulse s)
      · left; rw [h]; simp
      · right; rw [h, fire_pos]; simp [h1, hs, hns]
      · left; rw [h]; simp
    · rw [advance_count _ _ (by simpa using hc)]
      obtain ⟨-, h1, h⟩ | ⟨-, h⟩ := advanceCount_cases s.pulse up (lowerPulse s)
      · right; rw [h, fire_pos]; simp [h1, hs, hns]
      · left; rw [h]; simp

end Sys2Proof.Machine
end

