-- ==== Sys2Proof/Laws/Step.lean ====
section
/-! SUPPORT. One transition by cases, once for every proof about `step`. -/

namespace Sys2Proof.Machine

/-- A step: nothing presented and nothing done, a refusal, or the command's meaning. -/
theorem step_cases (s : State) :
    (s.pending = [] ∧ step s = .next s) ∨
    ∃ p rest, s.pending = p :: rest ∧
      ((∃ r, decode p.word p.agent s.built = .error r ∧ step s = .next (refuse r (accept p rest s))) ∨
       ∃ i, decode p.word p.agent s.built = .ok i ∧ step s = exec i (accept p rest s)) := by
  rcases h : s.pending with _ | ⟨p, rest⟩
  · exact .inl ⟨rfl, by unfold step; rw [h]⟩
  · refine .inr ⟨p, rest, rfl, ?_⟩
    rcases hd : decode p.word p.agent s.built with r | i
    · exact .inl ⟨r, rfl, by unfold step; rw [h]; simp only [hd]⟩
    · exact .inr ⟨i, rfl, by unfold step; rw [h]; simp only [hd]⟩

/-- Ticks one more. -/
theorem execAll_ticks_succ {k : ℕ} {s t : State} (h : execAll (ticks k) s = .next t) :
    execAll (ticks (k + 1)) s = .next (tickOnce t) := by
  have : ticks (k + 1) = ticks k ++ [.tick] := by unfold ticks; rw [List.replicate_succ']
  rw [this, execAll_append _ _ _ _ h]
  rfl

theorem ticks_add (j k : ℕ) : ticks (j + k) = ticks j ++ ticks k := by unfold ticks; rw [List.replicate_add]

end Sys2Proof.Machine
end

