-- ==== Sys2Proof/Tests/Slice0.lean ====
section
/-! SUPPORT. The model's own tests. Every expected value is from 95_test_vectors.md or worked by hand from the rule the
comment names. A theorem `test_meets_<Name>` shows concrete inputs that meet every hypothesis of `Obligations.<Name>`,
at the boundaries of its clauses. Rational arithmetic is evaluated by the kernel. -/

namespace Sys2Proof.Machine.Tests

/-! ## Small states -/

/-- The common configuration of 95_test_vectors.md, strategy A. -/
def cfgA : Config := { Config.powerOn with strategy := .a, n := 16 }

/-- The common configuration of 95_test_vectors.md, strategy B. -/
def cfgB : Config := { Config.powerOn with strategy := .b }

/-- Vector L2-B4's configuration: an interval register of 8 bits. -/
def cfgNarrow : Config := { cfgB with wt := 8, eps := 1 / 128 }

/-- "Start state S0", the state right after `CONSTRUCT`. -/
def s0 (c : Config) : State := constructed c { State.reset with cfgIn := c }

/-- The state after a command; every command answers one. -/
def after (i : Instr) (s : State) : State :=
  match exec i s with
  | .next t => t
  | .fault _ => s
  | .refused _ => s

/-- The state after a list of commands. -/
def run (is : List Instr) (s : State) : State :=
  match execAll is s with
  | .next t => t
  | .fault _ => s
  | .refused _ => s

/-- The state after one transition; every step answers one. -/
def stepped (s : State) : State :=
  match step s with
  | .next t => t
  | .fault _ => s
  | .refused _ => s

/-- Constructed and enabled, Stopped. -/
def on (c : Config) : State := after .enable (s0 c)

/-- Running under strategy A with a given increment and phase. -/
def phaseState (dir : Dir) (inc acc : ℕ) (pulse : Bool) : State :=
  { on cfgA with dir := dir, inc := inc, acc := acc, pulse := pulse }

/-- Running under strategy B with the schedule of `SETVEL 40`: `TPS = 6`, `DTOTAL = 4`, `DLONG = 1`. -/
def countState (dir : Dir) (tcnt dcount : ℕ) (pulse : Bool) : State :=
  { on cfgB with dir := dir, tps := 6, dtotal := 4, dlong := 1, tcnt := tcnt, dcount := dcount, pulse := pulse }

/-- `SETVEL 40` under strategy A, Positive, before any tick. -/
def goingA : State := run [.setvel 0x00280000] (on cfgA)

/-- `SETVEL 40` under strategy B, Positive, before any tick. -/
def goingB : State := run [.setvel 0x00280000] (on cfgB)

/-- Full speed under strategy A, one tick before a step. -/
def fastA : State := run [.setvel 0x007D0000, .tick] (on cfgA)

/-- A reversal while the pulse of a step is high: the next tick is deferred (R87). -/
def reversedA : State := run [.tick, .setvel 0xFF830000] fastA

/-- Full speed under strategy A, Negative, one tick before a step (R91). -/
def fastDownA : State := run [.setvel 0xFF830000] (on cfgA)

/-- A block with one command presented to it. -/
def presents (agent : Agent) (word : CommandWord) (built : Bool) : State :=
  { State.reset with built := built, pending := [⟨agent, word, none⟩] }

/-! ## Decoding: words written bit by bit from R51 and R53 -/

theorem test_decode_construct :
    decodeWord (0b00000001#8 ++ 0b00000000000000000000000000000000#32) = .ok .construct := by decide
theorem test_decode_enable :
    decodeWord (0b00000010#8 ++ 0b00000000000000000000000000000000#32) = .ok .enable := by decide
theorem test_decode_disable :
    decodeWord (0b00000011#8 ++ 0b00000000000000000000000000000000#32) = .ok .disable := by decide
/-- `SETVEL 40`, whose code is `40 · 2^16`. -/
theorem test_decode_setvel :
    decodeWord (0b00010000#8 ++ 0b00000000001010000000000000000000#32) = .ok (.setvel 2621440) := by decide
theorem test_decode_getvel :
    decodeWord (0b00010001#8 ++ 0b00000000000000000000000000000000#32) = .ok .getvel := by decide
/-- `SETPOS −5` in two's complement. -/
theorem test_decode_setpos :
    decodeWord (0b00100000#8 ++ 0b11111111111111111111111111111011#32) = .ok (.setpos (-5)) := by decide
/-- `SETPOSD 1.5`, whose code is `3 · 2^15`. -/
theorem test_decode_setposd :
    decodeWord (0b00100001#8 ++ 0b00000000000000011000000000000000#32) = .ok (.setposd 98304) := by decide
theorem test_decode_getpos :
    decodeWord (0b00100010#8 ++ 0b00000000000000000000000000000000#32) = .ok .getpos := by decide
theorem test_decode_getposd :
    decodeWord (0b00100011#8 ++ 0b00000000000000000000000000000000#32) = .ok .getposd := by decide
theorem test_decode_tick :
    decodeWord (0b00110000#8 ++ 0b00000000000000000000000000000000#32) = .ok .tick := by decide

/-- The outcomes of L2-E1 to L2-E11. -/
theorem test_decode_vectors :
    decode 0x3000000000 .ticksrc false = .error .notConstructed ∧
    decode 0x0100000000 .host false = .ok .construct ∧
    decode 0x4000000000 .host true = .error .reservedOpcode ∧
    decode 0x2200000001 .host true = .error .nonZeroOperand ∧
    decode 0x3000000001 .host true = .error .nonZeroOperand ∧
    decode 0x3000000000 .host true = .error .wrongContext ∧
    decode 0x0200000000 .ticksrc true = .error .wrongContext ∧
    decode 0x1000280000 .host true = .ok (.setvel 0x00280000) ∧
    decode 0x10FFD80000 .host true = .ok (.setvel 0xFFD80000) ∧
    decode 0x20FFFFFFFB .host true = .ok (.setpos (-5)) ∧
    decode 0xFF00000000 .host false = .error .reservedOpcode := by decide

/-- The bit numbering of opcode_table.json is that of the word. -/
theorem test_decodeTableWord : decodeTableWord 40 0x1000280000 = some (.setvel 0x00280000) ∧
    decodeTableWord 40 0x2200000001 = none := by decide

/-- A placed word is run by the very next step from reset, whether its issuer is `TICKSRC` or `HOST` (R54). -/
theorem test_withFetchWord :
    stepped (State.reset.withFetchWord 40 0x3000000000) = after .tick { State.reset with built := true } ∧
    stepped (State.reset.withFetchWord 40 0x0100000000) = after .construct State.reset := by decide +kernel

/-- L2-E1 and program P5: a tick before `CONSTRUCT` is refused and nothing else changes (R112). -/
theorem test_step_refuses : stepped (presents .ticksrc 0x3000000000 false) =
    { State.reset with refused := true, lastRefusal := some .notConstructed } := by decide +kernel

/-! ## Well-formedness: an ill-formed term for each check -/

theorem test_wf_reserved_opcode : (commandOf 0x4000000000).wellFormed = false := by decide
theorem test_wf_z_operand : (commandOf 0x2200000001).wellFormed = false := by decide
theorem test_wf_v_operand_is_free : (commandOf 0x1000000001).wellFormed = true := by decide
theorem test_wf_issuer : (commandOf 0x3000000000).issuedBy .host = false ∧
    (commandOf 0x0200000000).issuedBy .ticksrc = false := by decide
/-- `0.1 · 2^16` is no integer: an assembly error (R57). -/
theorem test_wf_decimal_granularity : (AsmLine.setvel (.decimal (1 / 10))).wellFormed = false := by decide +kernel
theorem test_wf_decimal_range : (AsmLine.setvel (.decimal 32768)).wellFormed = false ∧
    (AsmLine.setposd (.decimal (-32768 - 1 / 65536))).wellFormed = false ∧
    (AsmLine.setposd (.decimal (-32768))).wellFormed = true := by decide +kernel
theorem test_wf_setpos_range : (AsmLine.setpos 2147483648).wellFormed = false ∧
    (AsmLine.setpos (-2147483649)).wellFormed = false := by decide
theorem test_wf_ticks : (AsmLine.ticks 0).wellFormed = false := by decide

/-- The configuration of the vectors is legal, and one out of range in one parameter at a time is not (R8). -/
theorem test_legalConfig_vectors : legalConfig cfgA = true ∧ legalConfig cfgB = true ∧ legalConfig cfgNarrow = true := by
  decide +kernel
theorem test_illegal_tickRate : legalConfig { cfgA with tickRateHz := 0 } = false := by decide +kernel
theorem test_illegal_spd : legalConfig { cfgA with spd := 0 } = false ∧ legalConfig { cfgA with spd := -1 } = false := by
  decide +kernel
theorem test_illegal_u : legalConfig { cfgA with u := 0 } = false := by decide +kernel
theorem test_illegal_kB : legalConfig { cfgA with kB := 3 } = false ∧ legalConfig { cfgA with kB := 9 } = false := by
  decide +kernel
theorem test_illegal_vStop : legalConfig { cfgA with vStop := 0 } = false := by decide +kernel
theorem test_illegal_eps : legalConfig { cfgA with eps := 0 } = false ∧ legalConfig { cfgA with eps := 1 / 4 } = false ∧
    legalConfig { cfgNarrow with eps := 1 / 255 } = false ∧ legalConfig { cfgNarrow with eps := 1 / 254 } = true := by
  decide +kernel
theorem test_illegal_n : legalConfig { cfgA with n := 1 } = false := by decide +kernel
theorem test_illegal_wt : legalConfig { cfgNarrow with wt := 7, eps := 1 / 8 } = false := by decide +kernel
theorem test_illegal_aw : legalConfig { cfgA with aw := 0 } = false := by decide +kernel

/-! ## The assembler's text (R57, R58) -/

theorem test_parse_label_comment :
    parseLine "go: SETVEL -62.5 ; full speed".toList = some (some (.setvel (.decimal (-125 / 2)))) := by decide +kernel
theorem test_parse_raw : parseLine "SETPOSD #0x80000000".toList = some (some (.setposd (.raw 0x80000000))) := by
  decide +kernel
theorem test_parse_pseudo : parseLine "TICKS 50".toList = some (some (.ticks 50)) := by decide +kernel
theorem test_parse_unknown : parseLine "HALT".toList = none ∧ parseLine "GETPOS 1".toList = none := by decide +kernel

/-! ## The commands: 95_test_vectors.md -/

/-- L2-C1 and the example of R124. -/
theorem test_construct :
    (s0 cfgB).built = true ∧ (s0 cfgB).enabled = false ∧ (s0 cfgB).tps = 0xFFFFFFFF ∧ (s0 cfgB).dtotal = 1 ∧
    (s0 cfgB).outlog = [(.stepOut, false), (.dirOut, false), (.enOut, true)] ∧ (s0 cfgA).maxCode = 0x007D0000 ∧
    (s0 cfgB).maxCode = 0x003E8000 := by decide +kernel
/-- L2-C2. -/
theorem test_construct_refused :
    (after .construct { s0 cfgA with cfgIn := { cfgA with spd := 0 }, pos := 7 }).refused = true ∧
    (after .construct { s0 cfgA with cfgIn := { cfgA with spd := 0 }, pos := 7 }).pos = 7 := by decide +kernel
/-- L2-C4: `ENABLE` while running. -/
theorem test_enable :
    (after .enable (countState .positive 3 2 false)).dir = .stopped ∧
    (after .enable (countState .positive 3 2 false)).dcount = 0 ∧
    (after .enable (countState .positive 3 2 false)).tcnt = 3 := by decide +kernel
/-- L2-C5: the pulse is lowered before `EN_OUT` is written. -/
theorem test_disable :
    (after .disable (countState .positive 0 1 true)).outlog =
      (countState .positive 0 1 true).outlog ++ [(.stepOut, false), (.enOut, true)] ∧
    (after .disable (countState .positive 0 1 true)).pulse = false := by decide +kernel
/-- L1-1 and L2-A1e: `SETVEL 40` under A. -/
theorem test_setvel_phase : (after (.setvel 0x00280000) (on cfgA)).inc = 10486 ∧
    (after (.setvel 0x000062A5) (on cfgA)).inc = 101 ∧ (after (.setvel 0x00C80000) (on cfgA)).inc = 32768 := by
  decide +kernel
/-- L2-B1e, L2-B1f and L2-B4: the high branch, its boundary, and the saturated interval `(TPS, DTOTAL, DLONG)`. -/
theorem test_setvel_interval :
    dither cfgB 40 = (6, 4, 1) ∧ dither cfgB 32 = (7, 5, 4) ∧ dither cfgB 20 = (12, 2, 1) ∧
    dither cfgNarrow (1 / 16) = (254, 1, 0) ∧ dither cfgNarrow 1 = (250, 128, 1) := by decide +kernel
/-- L2-C7. -/
theorem test_getvel : (run [.setvel 0x00C80000, .getvel] (on cfgB)).result = 0x003E8000 := by decide +kernel
/-- L2-P14: no event, and the counters cleared. -/
theorem test_setpos : (after (.setpos 7) (countState .positive 5 2 false)).tcnt = 0 ∧
    (after (.setpos 7) (countState .positive 5 2 false)).dcount = 0 ∧
    (after (.setpos 7) (countState .positive 5 2 false)).tps = 6 := by decide +kernel
/-- L2-P2 and L2-P3: halves away from zero. -/
theorem test_setposd : (after (.setposd 0x00000800) (on cfgA)).pos = 3 ∧
    (after (.setposd 0xFFFFF800) (on cfgA)).pos = -3 := by decide +kernel
/-- L2-P4 and L2-P5: saturation. -/
theorem test_setposd_saturates : (after (.setposd 0x7FFFFFFF) (s0 { cfgA with spd := 131072 })).pos = 2147483647 ∧
    (after (.setposd 0x80000000) (s0 { cfgA with spd := 131072 })).pos = -2147483648 := by decide +kernel
/-- L2-P15. -/
theorem test_getpos : (after .getpos { s0 cfgA with pos := -5 }).result = 0xFFFFFFFB := by decide +kernel
/-- L2-P7, L2-P11 and L2-P13. -/
theorem test_getposd : (after .getposd { s0 cfgA with pos := 1 }).result = 0x00000333 ∧
    (after .getposd { s0 cfgA with pos := 0x80000000 }).result = 0x80000000 ∧
    (after .getposd { s0 { cfgA with spd := 3 } with pos := -1 }).result = 0xFFFFAAAB := by decide +kernel
/-- L2-TA3's first tick, L2-TA4's deferral on a tick that lowers the pulse, and L2-TA6's wrap of the position. -/
theorem test_tick_phase :
    (tickOnce (phaseState .negative 16384 0 false)).acc = 49152 ∧ (tickOnce (phaseState .negative 16384 0 false)).pos = -1 ∧
    (tickOnce (phaseState .negative 32768 0 true)).acc = 0 ∧
    (tickOnce (phaseState .negative 32768 0 true)).pulse = false ∧
    (tickOnce { phaseState .positive 32768 32768 false with pos := 0x7FFFFFFF }).pos = 0x80000000 := by decide +kernel
/-- L2-TB2: a target lowered below the count fires at once, and L2-TB1: the long interval first. -/
theorem test_tick_count :
    (tickOnce (countState .positive 10 0 false)).tcnt = 0 ∧ (tickOnce (countState .positive 10 0 false)).dcount = 1 ∧
    (tickOnce (countState .positive 5 0 false)).tcnt = 6 ∧ (tickOnce (countState .positive 5 1 false)).pos = 1 := by
  decide +kernel

/-! ## Witnesses: the hypotheses of the statements can be met -/

/-! `Inv` holds of a constructed block that is running. -/

theorem test_Inv_goingA : Inv goingA :=
  ⟨by decide +kernel, fun _ => ⟨by unfold ConfigInv; decide +kernel, by unfold ControlInv; decide +kernel,
    by unfold PhaseInv; decide +kernel, by unfold IntervalInv; decide +kernel, by unfold PortInv; decide +kernel⟩⟩

theorem test_Inv_goingB : Inv goingB :=
  ⟨by decide +kernel, fun _ => ⟨by unfold ConfigInv; decide +kernel, by unfold ControlInv; decide +kernel,
    by unfold PhaseInv; decide +kernel, by unfold IntervalInv; decide +kernel, by unfold PortInv; decide +kernel⟩⟩

theorem test_Inv_fastA : Inv fastA :=
  ⟨by decide +kernel, fun _ => ⟨by unfold ConfigInv; decide +kernel, by unfold ControlInv; decide +kernel,
    by unfold PhaseInv; decide +kernel, by unfold IntervalInv; decide +kernel, by unfold PortInv; decide +kernel⟩⟩

theorem test_Inv_reversedA : Inv reversedA :=
  ⟨by decide +kernel, fun _ => ⟨by unfold ConfigInv; decide +kernel, by unfold ControlInv; decide +kernel,
    by unfold PhaseInv; decide +kernel, by unfold IntervalInv; decide +kernel, by unfold PortInv; decide +kernel⟩⟩

theorem test_Inv_fastDownA : Inv fastDownA :=
  ⟨by decide +kernel, fun _ => ⟨by unfold ConfigInv; decide +kernel, by unfold ControlInv; decide +kernel,
    by unfold PhaseInv; decide +kernel, by unfold IntervalInv; decide +kernel, by unfold PortInv; decide +kernel⟩⟩

theorem test_meets_DecodeChecksInOrder :
    (commandOf 0x4000000001).hasDefinedOpcode = false ∧
    ((commandOf 0x3000000001).hasDefinedOpcode = true ∧ (commandOf 0x3000000001).hasLegalOperand = false) ∧
    ((commandOf 0x3000000000).wellFormed = true ∧ (commandOf 0x3000000000).issuedBy .host = false) ∧
    ((commandOf 0x2200000000).issuedBy .host = true ∧ opcOf 0x2200000000 ≠ 0x01) ∧
    ((commandOf 0x0100000000).wellFormed = true ∧ (commandOf 0x0100000000).issuedBy .host = true) := by decide

theorem test_meets_ReservedOpcodesRefused :
    opcOf 0x0000000000 ∉ definedOpcodes ∧ opcOf 0xFF00000000 ∉ definedOpcodes ∧ opcOf 0x3100000000 ∉ definedOpcodes ∧
    (opcOf 0x2200000001 ∈ zFormatOpcodes ∧ opdOf 0x2200000001 ≠ 0) ∧
    (presents .host 0xFF00000000 false).pending = [⟨.host, 0xFF00000000, none⟩] := by decide +kernel

/-- Each line at both ends of its operand's range. -/
theorem test_meets_AssemblerTakesLegalLines :
    assemble (.setvel (.decimal (-32768))) = some [.setvel 0x80000000] ∧
    assemble (.setvel (.decimal (32768 - 1 / 65536))) = some [.setvel 0x7FFFFFFF] ∧
    assemble (.setposd (.decimal (-32768))) = some [.setposd 0x80000000] ∧
    assemble (.setposd (.decimal (32768 - 1 / 65536))) = some [.setposd 0x7FFFFFFF] ∧
    assemble (.setpos (-2147483648)) = some [.setpos 0x80000000] ∧
    assemble (.setpos 2147483647) = some [.setpos 0x7FFFFFFF] ∧
    (AsmLine.getvel, Instr.getvel) ∈ [(AsmLine.getvel, Instr.getvel)] := by decide +kernel

theorem test_meets_PseudoInstructionsExpand : 1 ≤ 1 ∧ assemble (.ticks 1) = some [.tick] := by decide

theorem test_meets_StepRunsDecodedCommand :
    (presents .ticksrc 0x3000000000 true).pending = [⟨.ticksrc, 0x3000000000, none⟩] ∧
    decode 0x3000000000 .ticksrc (presents .ticksrc 0x3000000000 true).built = .ok .tick := by decide +kernel

theorem test_meets_StepRefusesWithoutEffect :
    (presents .host 0x3000000000 true).pending = [⟨.host, 0x3000000000, none⟩] ∧
    decode 0x3000000000 .host (presents .host 0x3000000000 true).built = .error .wrongContext ∧
    State.reset.pending = [] := by decide +kernel

theorem test_meets_EveryStepTakesOneCommand :
    decodeTableWord 40 0x0100000000 = some .construct ∧ decodeTableWord 40 0x3000000000 = some .tick := by decide

theorem test_meets_RefusedStaysSet : ∃ s t, step s = .next t ∧ s.refused = true :=
  ⟨{ presents .host 0x0100000000 false with refused := true }, _, rfl, rfl⟩

theorem test_meets_OutlogOnlyGrows : ∃ s t, step s = .next t ∧ s.outlog = [] ∧ t.outlog ≠ [] :=
  ⟨presents .host 0x0100000000 false, stepped (presents .host 0x0100000000 false), rfl, by decide +kernel⟩

/-- `K_B` at both ends of its range, `EPS` at both ends of its own, every other parameter at its least. -/
theorem test_meets_ConstructResult :
    LegalRanges { cfgA with tickRateHz := 1, u := 1, kB := 4, n := 2, wt := 8, eps := 1 / 8, aw := 1 } ∧
    LegalRanges { cfgB with kB := 8, wt := 8, eps := 1 / 254 } := by unfold LegalRanges; decide +kernel

theorem test_meets_IllFormedConfigRefused :
    ¬ LegalRanges { cfgB with kB := 3 } ∧ ¬ LegalRanges { cfgB with kB := 9 } ∧ ¬ LegalRanges { cfgB with eps := 1 / 4 } ∧
    ¬ LegalRanges { cfgNarrow with eps := 1 / 255 } ∧ ({ cfgB with spd := 0 } : Config).spd = 0 := by
  unfold LegalRanges; decide +kernel

/-- Disabled at full speed; enabled one code below the threshold `1/16`. -/
theorem test_meets_SetvelStoppedResult :
    (s0 cfgA).dir ≠ .reserved ∧ (s0 cfgA).enabled = false ∧
    (on cfgB).dir ≠ .reserved ∧ clampedMagnitude (on cfgB) 0x00000FFF < (on cfgB).cfg.vStop := by decide +kernel

/-- At the threshold itself, and far beyond `MAXCODE` in both directions. -/
theorem test_meets_SetvelPhaseResult :
    (on cfgA).dir ≠ .reserved ∧ (on cfgA).cfg.strategy = .a ∧ (on cfgA).enabled = true ∧
    (on cfgA).cfg.vStop ≤ clampedMagnitude (on cfgA) 0x00001000 ∧
    clampedMagnitude (on cfgA) 0x00001000 ≤ (on cfgA).cfg.vStop ∧
    clampedMagnitude (on cfgA) 0x80000000 = 125 := by decide +kernel

/-- An interval saturated, one with `off < 1/2`, one with `off = 1/2`. -/
theorem test_meets_SetvelIntervalResult :
    (on cfgNarrow).dir ≠ .reserved ∧ (on cfgNarrow).cfg.strategy = .b ∧ (on cfgNarrow).enabled = true ∧
    (on cfgNarrow).cfg.vStop ≤ clampedMagnitude (on cfgNarrow) 0x00001000 ∧
    clampedMagnitude (on cfgNarrow) 0x00280000 = 40 ∧ clampedMagnitude (on cfgNarrow) 0x00140000 = 20 := by decide +kernel

theorem test_meets_TickStoppedResult : (on cfgA).dir = .stopped ∧ (on cfgB).dir = .stopped := by decide +kernel

/-- The accumulator after the add or the subtract, as `Obligations.TickPhaseResult` writes it. -/
def moved (up : Bool) (s : State) : ℤ := (if up then (s.acc : ℤ) + s.inc else (s.acc : ℤ) - s.inc) % 2 ^ s.cfg.n

/-- Each clause in each direction, at the boundary of the accumulator: a deferred wrap and a wrap that fires, one unit
inside no wrap. -/
theorem test_meets_TickPhaseResult :
    (phaseState .positive 32768 32768 true).cfg.strategy = .a ∧
    (phaseState .positive 32768 32768 true).dir = .positive ∧ (phaseState .negative 32768 32767 true).dir = .negative ∧
    (moved true (phaseState .positive 32768 32768 true) < 32768 ∧ (phaseState .positive 32768 32768 true).pulse = true) ∧
    (moved true (phaseState .positive 32768 32768 false) < 32768 ∧ (phaseState .positive 32768 32768 false).pulse = false) ∧
    ¬ moved true (phaseState .positive 32768 32767 true) < 32767 ∧
    (32767 < moved false (phaseState .negative 32768 32767 true) ∧ (phaseState .negative 32768 32767 true).pulse = true) ∧
    (32767 < moved false (phaseState .negative 32768 32767 false) ∧
      (phaseState .negative 32768 32767 false).pulse = false) ∧
    ¬ 32768 < moved false (phaseState .negative 32768 32768 true) := by decide +kernel

/-- At the target of a long interval, one below it, and at it with the pulse high. -/
theorem test_meets_TickCountResult :
    (countState .positive 6 0 false).cfg.strategy = .b ∧
    target (countState .positive 6 0 false) ≤ nextCount (countState .positive 6 0 false) ∧
    nextCount (countState .negative 5 0 false) < target (countState .negative 5 0 false) ∧
    (countState .negative 6 0 true).pulse = true := by decide +kernel

theorem test_meets_TickRefusesReservedDirection : (phaseState .reserved 1 0 true).dir.code = 3 := by decide +kernel

/-- Every operand, at a state of the reserved direction. -/
theorem test_meets_SetvelRefusesReservedDirection :
    (phaseState .reserved 1 0 true).dir.code = 3 ∧
    (after (.setvel 0x00280000) (phaseState .reserved 1 0 true)).refused = true := by decide +kernel

/-- Each clause of the writers' table speaks of some command. -/
theorem test_meets_WritersOfEachRegister :
    setsRate .tick = false ∧ setsRate (.setpos 0) = false ∧ overwritesPosition .enable = false ∧
    (setsRate .getvel = false ∧ overwritesPosition .getvel = false ∧ Instr.getvel ≠ .tick) ∧
    Instr.setvel 0 ∉ [Instr.tick, .disable, .construct] ∧ Instr.tick ∉ [Instr.enable, .disable, .construct] ∧
    overwritesPosition (.setposd 0) = true ∧ ∃ t, exec .enable (s0 cfgA) = .next t ∧ (s0 cfgA).dir ≠ .reserved :=
  ⟨rfl, rfl, rfl, ⟨rfl, rfl, by decide⟩, by decide, by decide, rfl, _, rfl, by decide +kernel⟩

/-- States that differ, and in absent registers alone, under each strategy. -/
theorem test_meets_AbsentRegistersUnread :
    withoutAbsent (s0 cfgA) = withoutAbsent { s0 cfgA with tps := 5 } ∧ s0 cfgA ≠ { s0 cfgA with tps := 5 } ∧
    withoutAbsent (s0 cfgB) = withoutAbsent { s0 cfgB with acc := 5 } ∧ s0 cfgB ≠ { s0 cfgB with acc := 5 } := by
  decide +kernel

theorem test_meets_AbsentRegistersUnwritten : ∃ t u, exec .tick (on cfgA) = .next t ∧ t.cfg.strategy = .a ∧
    exec .tick (on cfgB) = .next u ∧ u.cfg.strategy = .b := ⟨_, _, rfl, rfl, rfl, rfl⟩

theorem test_meets_DisabledIsStopped :
    (∃ s t, (s.enabled = false → s.dir = .stopped) ∧ step s = .next t ∧ t.enabled = false) ∧ LegalRanges cfgA ∧
    (after (.setvel 0x00280000) (on cfgA)).dir ≠ .stopped := by
  refine ⟨⟨State.reset, _, fun _ => rfl, rfl, rfl⟩, ?_, ?_⟩
  · unfold LegalRanges; decide +kernel
  · decide +kernel

/-- A running block under each strategy, with a tick presented. -/
theorem test_meets_StepKeepsInv :
    (∃ s t, s.built = true ∧ s.cfg = goingA.cfg ∧ s.dir = goingA.dir ∧ Inv s ∧ step s = .next t) ∧
    (∃ s t, s.built = true ∧ s.cfg = goingB.cfg ∧ s.dir = goingB.dir ∧ Inv s ∧ step s = .next t) :=
  ⟨⟨{ goingA with built := true, pending := [⟨.ticksrc, 0x3000000000, none⟩] }, _, rfl, rfl, rfl,
      ⟨test_Inv_goingA.1, fun _ => test_Inv_goingA.2 (by decide +kernel)⟩, rfl⟩,
    ⟨{ goingB with built := true, pending := [⟨.ticksrc, 0x3000000000, none⟩] }, _, rfl, rfl, rfl,
      ⟨test_Inv_goingB.1, fun _ => test_Inv_goingB.2 (by decide +kernel)⟩, rfl⟩⟩

/-- Codes at `±MAXCODE` and one beyond. -/
theorem test_meets_VelocityIsClamped :
    LegalRanges cfgA ∧ maxCodeOf (maxVOf cfgA) = (0x007D0000#32).toInt ∧
    maxCodeOf (maxVOf cfgA) < (0x007D0001#32).toInt ∧ (0xFF82FFFF#32).toInt < -maxCodeOf (maxVOf cfgA) ∧
    -maxCodeOf (maxVOf cfgA) = (0xFF830000#32).toInt := by unfold LegalRanges; decide +kernel

/-- A magnitude of zero and one at the limit. -/
theorem test_meets_IncrementIsStepsPerTick : LegalRanges cfgA ∧ (0 : ℚ) ≤ 0 ∧ (125 : ℚ) ≤ maxVA cfgA := by
  unfold LegalRanges; decide +kernel

/-- A magnitude whose increment meets the bound of the third clause, and one whose increment is positive but does not. -/
theorem test_meets_IncrementRateError :
    LegalRanges cfgA ∧ 0 < (125 : ℚ) ∧ 0 < phaseIncrement cfgA 125 ∧
    (2 ^ 15 : ℚ) ≤ phaseIncrement cfgA 125 * (2 ^ 16 * 125 * 80 / (20000 * 1)) ∧ phaseIncrement cfgA (1 / 16) = 16 := by
  unfold LegalRanges; decide +kernel

/-- The greatest magnitude, and one whose interval is the greatest that fits. -/
theorem test_meets_IntervalAtLeastMinimum :
    LegalRanges cfgNarrow ∧ (125 / 2 : ℚ) ≤ maxVB cfgNarrow ∧ 0 < (125 / 127 : ℚ) ∧
    ⌊idealInterval cfgNarrow (125 / 127)⌋ ≤ 2 ^ cfgNarrow.wt - 2 ∧ idealInterval cfgNarrow (125 / 127) = 254 := by
  unfold LegalRanges; decide +kernel

/-- A saturated interval, one that fits with a fraction, one that fits without. -/
theorem test_meets_DitherSchedule :
    LegalRanges cfgNarrow ∧ (40 : ℚ) ≤ maxVB cfgNarrow ∧
    2 ^ cfgNarrow.wt - 2 < ⌊idealInterval cfgNarrow (1 / 16)⌋ ∧ ⌊idealInterval cfgNarrow 40⌋ ≤ 2 ^ cfgNarrow.wt - 2 ∧
    ((dither cfgNarrow 40).1 : ℚ) ≠ idealInterval cfgNarrow 40 ∧
    ((dither cfgNarrow 50).1 : ℚ) = idealInterval cfgNarrow 50 := by unfold LegalRanges; decide +kernel

theorem test_meets_OneStepPerTick :
    (tickOnce (phaseState .positive 32768 32768 false)).pos ≠ (phaseState .positive 32768 32768 false).pos ∧
    (tickOnce (phaseState .positive 32768 0 false)).pos = (phaseState .positive 32768 0 false).pos := by decide +kernel

theorem test_meets_PulseLastsOneTick :
    (phaseState .positive 32768 0 true).dir ≠ .reserved ∧ (phaseState .positive 32768 0 true).pulse = true ∧
    (tickOnce (phaseState .positive 32768 32768 false)).pulse = true := by decide +kernel

/-- Both ends of the range of `POS`. -/
theorem test_meets_PositionIsMonotonic :
    (tickOnce { phaseState .positive 32768 32768 false with pos := 0x7FFFFFFF }).pos.toInt = -2147483648 ∧
    (tickOnce { phaseState .negative 32768 0 false with pos := 0x80000000 }).pos.toInt = 2147483647 ∧
    (tickOnce (phaseState .negative 32768 0 false)).pos.toInt = -1 := by decide +kernel

/-- The fractional position in each direction, deferred, and after a `SETPOS`. -/
theorem test_meets_FractionalPositionMoves :
    (phaseState .positive 32768 65535 true).cfg.strategy = .a ∧ (phaseState .positive 32768 65535 true).inc < 2 ^ 16 ∧
    (phaseState .positive 32768 65535 true).acc < 2 ^ 16 ∧ -2147483648 < (phaseState .positive 32768 65535 true).pos.toInt ∧
    (phaseState .negative 1 0 false).dir = .negative ∧ (phaseState .negative 1 0 false).pulse = false ∧
    0 < (phaseState .negative 1 0 false).inc := by decide +kernel

/-- A step at full speed, then a slower velocity in the same direction, then the next tick. -/
theorem test_meets_NoDeferralWithoutReversal : ∃ t u v : State,
    Inv fastA ∧ fastA.built = true ∧ fastA.cfg.strategy = .a ∧ fastA.dir ≠ .stopped ∧
    exec .tick fastA = .next t ∧ t.pulse = true ∧
    (∀ i ∈ [Instr.setvel 0x00280000], i ≠ .tick ∧ overwritesPosition i = false) ∧
    execAll [.setvel 0x00280000] t = .next u ∧ u.dir = fastA.dir ∧ exec .tick u = .next v :=
  ⟨tickOnce fastA, after (.setvel 0x00280000) (tickOnce fastA), _, test_Inv_fastA, by decide +kernel, by decide +kernel,
    by decide +kernel, rfl, by decide +kernel, by decide, rfl, by decide +kernel, rfl⟩

/-- Positive with the pulse low, and Negative with the pulse high and the first tick deferred. -/
theorem test_meets_PhaseTicksClosedForm :
    (Inv goingA ∧ goingA.built = true ∧ goingA.cfg.strategy = .a ∧ goingA.dir = .positive ∧ goingA.pulse = false) ∧
    (Inv reversedA ∧ reversedA.built = true ∧ reversedA.cfg.strategy = .a ∧ reversedA.dir = .negative ∧
      reversedA.pulse = true ∧ firstTickDefers reversedA = true) :=
  ⟨⟨test_Inv_goingA, by decide +kernel⟩, test_Inv_reversedA, by decide +kernel⟩

/-- A long interval: `DCOUNT < DLONG`. -/
theorem test_meets_IntervalLength :
    Inv goingB ∧ goingB.built = true ∧ goingB.cfg.strategy = .b ∧ goingB.dir ≠ .stopped ∧ goingB.tcnt = 0 ∧
    goingB.dcount < goingB.dlong := ⟨test_Inv_goingB, by decide +kernel⟩

theorem test_meets_DitherCycleLength :
    Inv goingB ∧ goingB.built = true ∧ goingB.cfg.strategy = .b ∧ goingB.dir ≠ .stopped ∧ goingB.tcnt = 0 ∧
    goingB.dcount = 0 := ⟨test_Inv_goingB, by decide +kernel⟩

/-- A run with a reversal and one tick fewer than `K_B`. -/
theorem test_meets_EdgesAtLeastMinimumApart :
    Inv goingB ∧ goingB.built = true ∧ goingB.cfg.strategy = .b ∧ goingB.tcnt = 0 ∧
    Instr.construct ∉ [Instr.tick, .setvel 0xFFC18000, .tick, .tick] ∧
    [Instr.tick, .setvel 0xFFC18000, .tick, .tick].count .tick < goingB.cfg.kB ∧
    ∃ t, execAll [.tick, .setvel 0xFFC18000, .tick, .tick] goingB = .next t :=
  ⟨test_Inv_goingB, by decide +kernel, by decide +kernel, by decide +kernel, by decide, by decide +kernel, _, rfl⟩

/-- A step, a reversal, and the tick after it, which is deferred; then a step and a `DISABLE`, and the same direction
again. -/
theorem test_meets_EdgesTwoTicksApart :
    (∃ t u, (tickOnce fastA).pulse = true ∧ (∀ i ∈ [Instr.setvel 0xFF830000], i ∉ [Instr.tick, .disable, .construct]) ∧
      execAll [.setvel 0xFF830000] (tickOnce fastA) = .next t ∧ exec .tick t = .next u) ∧
    (∃ t u v, Inv fastA ∧ fastA.built = true ∧ exec .tick fastA = .next t ∧ t.pulse = true ∧
      (∀ i ∈ [Instr.disable, .enable, .setvel 0x007D0000], i ≠ .tick ∧ overwritesPosition i = false) ∧
      execAll [.disable, .enable, .setvel 0x007D0000] t = .next u ∧ u.dir = fastA.dir ∧ exec .tick u = .next v) :=
  ⟨⟨_, _, by decide +kernel, by decide, rfl, rfl⟩,
    tickOnce fastA, run [.disable, .enable, .setvel 0x007D0000] (tickOnce fastA), _, test_Inv_fastA, by decide +kernel, rfl,
    by decide +kernel, by decide, rfl, by decide +kernel, rfl⟩

/-- A step, the tick that lowers its pulse, and a `DISABLE` that finds it low. -/
theorem test_meets_AtMostOneStepPerTwoTicks :
    pulsesEndOnTicks [.tick, .tick, .disable] fastA ∧ risingEdges (tickOnce fastA).outlog = 1 ∧
    ∃ t, execAll [.tick, .tick, .disable] fastA = .next t := by
  have low : (tickOnce (tickOnce fastA)).pulse = false := by decide +kernel
  refine ⟨⟨fun _ => by decide, fun t h => ⟨fun _ => by decide, fun u k => ⟨fun high => ?_, fun _ _ => trivial⟩⟩⟩,
    by decide +kernel, _, rfl⟩
  cases h
  cases k
  rw [low] at high
  cases high

/-- Worked by hand from R84: with `INC = 2^15` and `N = 16` the step before leaves `ACC = 2^15`, and the reversal wraps. -/
theorem test_meets_AdjacentEdgesAfterLoweredPulse :
    fastDownA.built = true ∧ fastDownA.cfg.strategy = .a ∧ fastDownA.cfgIn = fastDownA.cfg ∧
    (tickOnce fastDownA).acc = 32768 ∧ (run [.tick, .disable] fastDownA).pulse = false ∧
    (run [.tick, .disable, .enable, .setvel 0x007D0000, .tick] fastDownA).pos = 0 := by decide +kernel

theorem test_meets_PositionCountsEdges :
    (∀ i ∈ [Instr.tick, .setvel 0, .enable, .disable, .getpos], overwritesPosition i = false) ∧
    ∃ t, execAll [.tick, .setvel 0, .enable, .disable, .getpos] (on cfgA) = .next t := ⟨by decide, _, rfl⟩

theorem test_meets_StopTakesEffectNextTick :
    (after (.setvel 0x00000FFF) (phaseState .positive 32768 0 true)).dir = .stopped ∧
    (after (.setvel 0x00000FFF) (phaseState .positive 32768 0 true)).pulse = true := by decide +kernel

theorem test_meets_DisabledBlockIsSilent :
    ∃ t u, exec .disable (phaseState .positive 32768 0 true) = .next t ∧
      Instr.enable ∉ [Instr.setvel 0x00280000, .tick, .setpos 3, .construct] ∧
      execAll [.setvel 0x00280000, .tick, .setpos 3, .construct] t = .next u := ⟨_, _, rfl, by decide, rfl⟩

/-- A run that stays one code below the threshold, with a tick and a `DISABLE`. -/
theorem test_meets_EnableDoesNotReplay : ∃ t u, exec .enable (s0 cfgB) = .next t ∧
    staysBelowThreshold [.setvel 0x00000FFF, .tick] t ∧ execAll [.setvel 0x00000FFF, .tick] t = .next u := by
  refine ⟨on cfgB, _, rfl, ⟨?_, ?_⟩, rfl⟩
  · intro opd h
    cases h
    decide +kernel
  · intro t _
    exact ⟨fun opd h => (by cases h), fun _ _ => trivial⟩

theorem test_meets_NoStepBeforeEnableAndVelocity :
    LegalRanges cfgA ∧ (∃ t u, exec .construct { State.reset with cfgIn := cfgA } = .next t ∧
      Instr.enable ∉ [Instr.setvel 0x00280000, .tick] ∧ execAll [.setvel 0x00280000, .tick] t = .next u) :=
  ⟨by unfold LegalRanges; decide +kernel, _, _, rfl, by decide, rfl⟩

/-- The second clause: a position set while Negative, and a tick that fires. -/
theorem test_meets_SetposThenGetpos :
    risingEdges (run [.setpos 5, .tick] (phaseState .negative 16384 7 false)).outlog ≠
      risingEdges (phaseState .negative 16384 7 false).outlog ∧
    (run [.setpos 5, .tick, .getpos] (phaseState .negative 16384 7 false)).result = 4 := by decide +kernel

/-- Both hypotheses on the range at a large distance: `SETPOSD 32767.99998` at `spd = 1`. -/
theorem test_meets_DistanceRoundTrip :
    0 < (s0 { cfgA with spd := 1 }).cfg.spd ∧ (s0 { cfgA with spd := 1 }).cfg.spd ≤ 2 ^ 16 ∧
    roundHA (val 0x7FFF0000 * 1) = 32767 ∧ roundHA ((32767 : ℤ) * 65536 / 1) ≤ 2147483647 ∧
    -2147483648 ≤ roundHA ((32767 : ℤ) * 65536 / 1) := by decide +kernel

/-- The state before the first `CONSTRUCT` meets the invariant. -/
theorem test_reset_meets_Inv : Inv State.reset := ⟨rfl, fun h => by cases h⟩

end Sys2Proof.Machine.Tests
end

section
/-! The legality of a configuration (R8), written out in two ways, and O19. -/

namespace Sys2Proof.Machine

/-- The ranges of R7 as the obligations write them are the ones `CONSTRUCT` checks (R8). -/
theorem legalRanges_iff_legalConfig (c : Config) : LegalRanges c ↔ legalConfig c = true := by
  have hkB : c.kB ∈ [4, 5, 6, 7, 8] ↔ 4 ≤ c.kB ∧ c.kB ≤ 8 := by
    simp only [List.mem_cons, List.not_mem_nil, or_false]
    omega
  have heps : c.eps * 8 ≤ 1 ↔ c.eps ≤ 1 / 8 := by constructor <;> intro h <;> linarith
  simp only [LegalRanges, legalConfig_iff, hkB, heps, one_div, Nat.one_le_iff_ne_zero, and_assoc]

/-- Settles O19: the check of `CONSTRUCT` fails on every record outside the ranges, and a refusal is all it answers. -/
theorem illFormedConfigRefused : Obligations.IllFormedConfigRefused := by
  unfold Obligations.IllFormedConfigRefused
  constructor
  · intro s hill
    rw [legalRanges_iff_legalConfig] at hill
    rw [exec_construct, if_neg hill]
    rfl
  · rintro c hspd ⟨-, hpos, -⟩
    exact absurd hspd hpos.ne'

end Sys2Proof.Machine
end

section
/-! The ports and their registers (R31, R32, R33): every operation that writes a port keeps each port at the level of its
register. -/

namespace Sys2Proof.Machine

/-- Each port stands at the level of its register. -/
def PortsAtRegisters (s : State) : Prop :=
  portLevel .stepOut s.outlog = some s.pulse ∧ portLevel .dirOut s.outlog = some s.dirlvl ∧
  portLevel .enOut s.outlog = some s.enlvl

theorem portInv_iff (s : State) :
    PortInv s ↔ PortsAtRegisters s ∧ s.enlvl = (if s.enabled then s.cfg.enActive else !s.cfg.enActive) ∧
      (s.dir = .positive → s.dirlvl = s.cfg.dPol) ∧ (s.dir = .negative → s.dirlvl = !s.cfg.dPol) := by
  simp only [PortInv, PortsAtRegisters, and_assoc]

theorem portsAtRegisters_lowerPulse {s : State} (h : PortsAtRegisters s) : PortsAtRegisters (lowerPulse s) := by
  obtain ⟨hstep, hdir, hen⟩ := h
  cases hp : s.pulse <;> simp [PortsAtRegisters, portLevel_append_one, hstep, hdir, hen, hp]

theorem portsAtRegisters_fire (up : Bool) {s : State} (h : PortsAtRegisters s) : PortsAtRegisters (fire up s) := by
  obtain ⟨-, hdir, hen⟩ := h
  simp [PortsAtRegisters, portLevel_append_one, hdir, hen]

theorem portsAtRegisters_writeDirOut (l : Level) {s : State} (h : PortsAtRegisters s) :
    PortsAtRegisters (out .dirOut l { s with dirlvl := l }) := by
  obtain ⟨hstep, -, hen⟩ := h
  simp [PortsAtRegisters, portLevel_append_one, hstep, hen]

theorem portsAtRegisters_driveDirOut (d : Dir) {s : State} (h : PortsAtRegisters s) :
    PortsAtRegisters (driveDirOut d s) := by
  cases d with
  | stopped | reserved => exact h
  | positive | negative =>
    unfold driveDirOut
    dsimp only
    split
    · exact h
    · exact portsAtRegisters_writeDirOut _ h

theorem portsAtRegisters_driveEnOut (l : Level) {s : State} (h : PortsAtRegisters s) :
    PortsAtRegisters (driveEnOut l s) := by
  obtain ⟨hstep, hdir, -⟩ := h
  simp [PortsAtRegisters, driveEnOut, portLevel_append_one, hstep, hdir]

/-- The direction output agrees with the direction it was driven for (R32, R78). -/
theorem driveDirOut_dirlvl (d : Dir) (s : State) :
    (d = .positive → (driveDirOut d s).dirlvl = s.cfg.dPol) ∧
    (d = .negative → (driveDirOut d s).dirlvl = !s.cfg.dPol) := by
  rw [driveDirOut_eq]
  constructor <;> rintro rfl <;> rfl

end Sys2Proof.Machine
end

section
/-! The TimingParameter of `SETVEL` (R65, R66, R69) lies in the ranges the invariant asks of its registers. -/

namespace Sys2Proof.Machine

/-- A TimingParameter that may be written beside the direction `d`: of the configured strategy, in its ranges, and the
sentinel when `d` is Stopped (R23, R24, R25, R65). -/
def TimingFits (c : Config) (d : Dir) : TimingParam → Prop
  | .phase inc => c.strategy = .a ∧ inc ≤ 2 ^ (c.n - 1) ∧ (d = .stopped → inc = 0)
  | .interval tps dtotal dlong =>
    c.strategy = .b ∧ (d = .stopped → tps = 2 ^ c.wt - 1 ∧ dtotal = 1 ∧ dlong = 0) ∧
    (d ≠ .stopped → c.kB ≤ tps ∧ tps ≤ 2 ^ c.wt - 2) ∧
    1 ≤ dtotal ∧ dtotal ≤ 2 ^ c.wt - 2 ∧ dlong ≤ dtotal

/-- The increment of a magnitude up to `MAXV_A` is at most half the accumulator's range (R67). -/
theorem phaseIncrement_le {c : Config} {a : ℚ} (h : legalConfig c = true) (ha : a ≤ maxVA c) :
    phaseIncrement c a ≤ 2 ^ (c.n - 1) := by
  have hv := maxVA_pos h
  have hle : 2 ^ (c.n - 1) * a / maxVA c ≤ 2 ^ (c.n - 1) := by
    rw [div_le_iff₀ hv]
    gcongr
  have hround : roundHalfUp (2 ^ (c.n - 1) * a / maxVA c) ≤ ((2 ^ (c.n - 1) : ℕ) : ℤ) := by
    rw [roundHalfUp_le_iff_lt]
    push_cast
    linarith
  exact Int.toNat_le.mpr hround

theorem timingFits_sentinel {c : Config} (h : legalConfig c = true) : TimingFits c .stopped (sentinel c) := by
  have hwt := two_pow_wt_ge h
  cases hs : c.strategy <;> simp only [sentinel, hs, TimingFits]
  · exact ⟨trivial, Nat.zero_le _, fun _ => trivial⟩
  · exact ⟨trivial, by simp, fun hd => absurd rfl hd, le_rfl, by omega, by omega⟩

theorem timingFits_runningTiming {c : Config} {d : Dir} {a : ℚ} (h : legalConfig c = true) (hd : d ≠ .stopped)
    (ha : 0 < a) (hmax : a ≤ maxVOf c) : TimingFits c d (runningTiming c a) := by
  unfold maxVOf at hmax
  cases hs : c.strategy <;> simp only [hs] at hmax <;> simp only [runningTiming, hs, TimingFits]
  · exact ⟨trivial, phaseIncrement_le h hmax, fun hd' => absurd hd' hd⟩
  · obtain ⟨hk, htps, hone, htotal, hlong⟩ := dither_ranges h ha hmax
    exact ⟨trivial, fun hd' => absurd hd' hd, fun _ => ⟨hk, htps⟩, hone, htotal, hlong⟩

/-- The converter never answers the reserved direction, and answers Stopped while disabled (R20, R63). -/
theorem convert_dir (c : Config) (enabled : Bool) (code : ℤ) :
    (convert c enabled code).1 ≠ .reserved ∧ (enabled = false → (convert c enabled code).1 = .stopped) := by
  obtain ⟨-, e⟩ | ⟨hen, -, e⟩ := convert_cases c enabled code <;> rw [e]
  · simp
  · simp only [hen]
    split <;> simp

/-- The converter's TimingParameter fits its direction, for every code within `±MAXCODE`. -/
theorem timingFits_convert {c : Config} {code : ℤ} (h : legalConfig c = true) (enabled : Bool)
    (hcode : |code| ≤ maxCodeOf (maxVOf c)) :
    TimingFits c (convert c enabled code).1 (convert c enabled code).2 := by
  obtain ⟨-, e⟩ | ⟨-, hstop, e⟩ := convert_cases c enabled code <;> rw [e]
  · exact timingFits_sentinel h
  · obtain ⟨-, -, -, -, -, hv, -⟩ := (legalConfig_iff c).mp h
    refine timingFits_runningTiming h ?_ (hv.trans_le hstop) (magnitude_le_of_le_maxCode hcode)
    dsimp only
    split <;> simp

end Sys2Proof.Machine
end

section
/-! The invariant of a constructed block, kept by each operation that commands are made of, and O31. -/

namespace Sys2Proof.Machine

/-- What `Inv` asks of a block once `BUILT = 1`. -/
def BuiltInv (s : State) : Prop := ConfigInv s ∧ ControlInv s ∧ PhaseInv s ∧ IntervalInv s ∧ PortInv s

theorem inv_iff (s : State) : Inv s ↔ s.refused = s.lastRefusal.isSome ∧ (s.built = true → BuiltInv s) := Iff.rfl

/-- An operation that leaves `BUILT`, `REFUSED` and its reason alone keeps `Inv` when it keeps the part of a constructed
block. -/
theorem inv_of_builtInv {s t : State} (hs : Inv s) (hbuilt : t.built = s.built) (hrefused : t.refused = s.refused)
    (hlast : t.lastRefusal = s.lastRefusal) (h : BuiltInv s → BuiltInv t) : Inv t := by
  rw [inv_iff] at hs ⊢
  rw [hbuilt, hrefused, hlast]
  exact ⟨hs.1, fun hb => h (hs.2 hb)⟩

/-- The cached `MAXCODE` is a non-negative code (R61). -/
theorem maxCode_bounds {s : State} (h : ConfigInv s) : 0 ≤ s.maxCode ∧ s.maxCode ≤ 2147483647 := by
  obtain ⟨hlegal, -, hmax⟩ := h
  rw [hmax]
  exact maxCodeOf_bounds (maxVOf_pos hlegal).le

theorem inv_refuse (r : RefusalReason) {s : State} (hs : Inv s) : Inv (refuse r s) := ⟨rfl, hs.2⟩

theorem inv_accept (p : Presented) (rest : List Presented) {s : State} (hs : Inv s) : Inv (accept p rest s) := hs

/-! ## `CONSTRUCT`, `ENABLE` and `DISABLE` -/

theorem builtInv_constructed {c : Config} (hc : legalConfig c = true) (s : State) : BuiltInv (constructed c s) := by
  obtain ⟨hcode, -⟩ := maxCodeOf_bounds (maxVOf_pos hc).le
  have hwt := two_pow_wt_ge hc
  rw [constructed_eq]
  refine ⟨⟨hc, rfl, rfl⟩, ⟨by simp, fun _ => rfl, ?_⟩, fun ha => ?_, fun hb => ?_, ?_⟩
  · simpa using hcode
  · dsimp only at ha ⊢
    simp [ha]
  · dsimp only at hb ⊢
    simp only [hb, if_true]
    exact ⟨by simp, fun hd => absurd rfl hd, le_rfl, by omega, by omega, by omega, Nat.zero_le _⟩
  · simp [PortInv, portLevel_append, portLevel]

/-- Forcing Stopped keeps the registers of a constructed block; its ports are the caller's. -/
theorem builtInv_stopMotor {s : State} (hcfg : ConfigInv s) (hlo : -s.maxCode ≤ s.vel.toInt)
    (hhi : s.vel.toInt ≤ s.maxCode) (hphase : PhaseInv s) (hint : IntervalInv s) (hports : PortsAtRegisters s)
    (hen : s.enlvl = if s.enabled then s.cfg.enActive else !s.cfg.enActive) : BuiltInv (stopMotor s) := by
  have hwt := two_pow_wt_ge hcfg.1
  rw [stopMotor_eq]
  refine ⟨hcfg, ⟨by simp, fun _ => rfl, hlo, hhi⟩, fun ha => ?_, fun hb => ?_, ?_⟩
  · obtain ⟨-, hacc, -⟩ := hphase ha
    dsimp only at ha ⊢
    simp [ha, hacc]
  · obtain ⟨-, -, -, -, -, -, htcnt⟩ := hint hb
    dsimp only at hb ⊢
    simp only [hb, if_true]
    exact ⟨by simp, fun hd => absurd rfl hd, le_rfl, by omega, by omega, by omega, htcnt⟩
  · exact (portInv_iff _).mpr ⟨hports, hen, by simp, by simp⟩

theorem builtInv_enable {s : State} (h : BuiltInv s) :
    BuiltInv (stopMotor (driveEnOut s.cfg.enActive { s with enabled := true })) := by
  obtain ⟨hcfg, ⟨-, -, hlo, hhi⟩, hphase, hint, hport⟩ := h
  obtain ⟨hports, -⟩ := (portInv_iff s).mp hport
  exact builtInv_stopMotor hcfg hlo hhi hphase hint
    (portsAtRegisters_driveEnOut s.cfg.enActive (s := { s with enabled := true }) hports) rfl

theorem builtInv_disable {s : State} (h : BuiltInv s) :
    BuiltInv (stopMotor (driveEnOut (!s.cfg.enActive) (lowerPulse { s with enabled := false }))) := by
  obtain ⟨hcfg, ⟨-, -, hlo, hhi⟩, hphase, hint, hport⟩ := h
  obtain ⟨hports, -⟩ := (portInv_iff s).mp hport
  refine builtInv_stopMotor ?_ ?_ ?_ ?_ ?_
    (portsAtRegisters_driveEnOut _ (portsAtRegisters_lowerPulse (s := { s with enabled := false }) hports)) ?_
  · simpa [ConfigInv] using hcfg
  · simpa using hlo
  · simpa using hhi
  · simpa [PhaseInv] using hphase
  · simpa [IntervalInv] using hint
  · simp [driveEnOut]

/-! ## `SETVEL` -/

/-- The commit of a code within `±MAXCODE`, with a direction and a TimingParameter that fit, keeps the invariant. -/
theorem builtInv_commitVelocity {s : State} {c : ℤ} {d : Dir} {p : TimingParam} (h : BuiltInv s)
    (hlo : -s.maxCode ≤ c) (hhi : c ≤ s.maxCode) (hd : d ≠ .reserved) (hstopped : s.enabled = false → d = .stopped)
    (hp : TimingFits s.cfg d p) : BuiltInv (commitVelocity c d p s) := by
  obtain ⟨hcfg, -, hphase, hint, hport⟩ := h
  obtain ⟨hports, hen, -⟩ := (portInv_iff s).mp hport
  obtain ⟨-, hword⟩ := maxCode_bounds hcfg
  have hcode : (code32 c).toInt = c := code32_toInt (by omega) (by omega)
  have hlevels : PortInv { s with
      vel := code32 c, dir := d, dirlvl := (driveDirOut d s).dirlvl, outlog := (driveDirOut d s).outlog } := by
    have hdriven := portsAtRegisters_driveDirOut d hports
    simp only [PortsAtRegisters, driveDirOut_pulse, driveDirOut_enlvl] at hdriven
    exact (portInv_iff _).mpr ⟨hdriven, hen, driveDirOut_dirlvl d s⟩
  have hctl : -s.maxCode ≤ (code32 c).toInt ∧ (code32 c).toInt ≤ s.maxCode := by rw [hcode]; exact ⟨hlo, hhi⟩
  cases p with
  | phase inc =>
    obtain ⟨ha, hinc, hzero⟩ := hp
    obtain ⟨-, hacc, -⟩ := hphase ha
    rw [commitVelocity_phase c d inc s ha]
    exact ⟨hcfg, ⟨hd, hstopped, hctl⟩, fun _ => ⟨hinc, hacc, hzero⟩, fun hb => by simp [ha] at hb, hlevels⟩
  | interval tps dtotal dlong =>
    obtain ⟨hb, hsentinel, htps, hone, htotal, hlong⟩ := hp
    obtain ⟨-, -, -, -, -, -, htcnt⟩ := hint hb
    rw [commitVelocity_interval c d tps dtotal dlong s hb]
    exact ⟨hcfg, ⟨hd, hstopped, hctl⟩, fun ha => by simp [hb] at ha,
      fun _ => ⟨hsentinel, htps, hone, htotal, hlong, Nat.mod_lt _ hone, htcnt⟩, hlevels⟩

theorem builtInv_setVelocity (opd : Word) {s : State} (h : BuiltInv s) : BuiltInv (setVelocity opd s) := by
  have hcfg : ConfigInv s := h.1
  have ⟨hlegal, _, hmax⟩ := hcfg
  obtain ⟨hpos, -⟩ := maxCode_bounds hcfg
  obtain ⟨hlo, hhi⟩ := clampVelocity_bounds hpos opd
  obtain ⟨hd, hstopped⟩ := convert_dir s.cfg s.enabled (clampVelocity s.maxCode opd)
  have habs : |clampVelocity s.maxCode opd| ≤ maxCodeOf (maxVOf s.cfg) := by
    rw [← hmax]
    exact abs_le.mpr ⟨hlo, hhi⟩
  exact builtInv_commitVelocity h hlo hhi hd hstopped (timingFits_convert hlegal s.enabled habs)

/-! ## The position store and `TICK` -/

theorem builtInv_overwritePosition (n : ℤ) {s : State} (h : BuiltInv s) : BuiltInv (overwritePosition n s) := by
  obtain ⟨hcfg, hctl, hphase, hint, hport⟩ := h
  rw [overwritePosition_eq]
  refine ⟨hcfg, hctl, fun ha => ?_, fun hb => ?_, hport⟩
  · obtain ⟨hinc, -, hzero⟩ := hphase ha
    dsimp only at ha ⊢
    exact ⟨hinc, by simp [ha], hzero⟩
  · obtain ⟨hsentinel, htps, hone, htotal, hlong, -, -⟩ := hint hb
    dsimp only at hb ⊢
    simp only [hb, if_true]
    exact ⟨hsentinel, htps, hone, htotal, hlong, hone, Nat.zero_le _⟩

/-- A tick leaves `ACC` within its `N` bits (R26, R84). -/
theorem tickOnce_acc_lt {s : State} (ha : s.cfg.strategy = .a) (hacc : s.acc < 2 ^ s.cfg.n) :
    (tickOnce s).acc < 2 ^ s.cfg.n := by
  obtain ⟨-, e⟩ | ⟨-, e⟩ | ⟨up, -, e⟩ := tickOnce_cases s
  · rw [e, holdStopped_acc, lowerPulse_acc]; exact hacc
  · rw [e]; exact hacc
  · have hnext := nextPhase_lt up s
    rw [e, advance_phase _ _ (by simpa using ha)]
    obtain ⟨-, -, e⟩ | ⟨-, -, e⟩ | ⟨-, e⟩ := advancePhase_cases s.pulse up (lowerPulse s) <;> simpa [e]

/-- A tick leaves `DCOUNT` below `DTOTAL` and `TCNT` within its `WT` bits (R27, R28, R85). -/
theorem tickOnce_counters {s : State} (hb : s.cfg.strategy = .b) (hone : 1 ≤ s.dtotal) (hcount : s.dcount < s.dtotal)
    (htcnt : s.tcnt ≤ 2 ^ s.cfg.wt - 1) :
    (tickOnce s).dcount < s.dtotal ∧ (tickOnce s).tcnt ≤ 2 ^ s.cfg.wt - 1 := by
  obtain ⟨-, e⟩ | ⟨-, e⟩ | ⟨up, -, e⟩ := tickOnce_cases s
  · rw [e, holdStopped_eq]
    simp [hb, hcount]
  · rw [e]; exact ⟨hcount, htcnt⟩
  · rw [e, advance_count _ _ (by simpa using hb)]
    obtain ⟨-, -, e⟩ | ⟨-, e⟩ := advanceCount_cases s.pulse up (lowerPulse s)
    · simp [e, Nat.mod_lt _ hone]
    · simp [e, hcount, nextCount]

theorem portsAtRegisters_tickOnce {s : State} (hd : s.dir ≠ .reserved) (h : PortsAtRegisters s) :
    PortsAtRegisters (tickOnce s) := by
  have hlow := portsAtRegisters_lowerPulse h
  have hfire := portsAtRegisters_fire true h
  unfold PortsAtRegisters at *
  obtain ⟨elog, -, epulse⟩ | ⟨-, -, elog, epulse, -⟩ := tickOnce_lowers_or_fires hd
  · simpa [elog, epulse] using hlow
  · simpa [elog, epulse] using hfire

theorem builtInv_tickOnce {s : State} (h : BuiltInv s) : BuiltInv (tickOnce s) := by
  obtain ⟨hcfg, hctl, hphase, hint, hport⟩ := h
  obtain ⟨hports, hrest⟩ := (portInv_iff s).mp hport
  have hports' := portsAtRegisters_tickOnce hctl.1 hports
  refine ⟨?_, ?_, fun ha => ?_, fun hb => ?_, (portInv_iff _).mpr ⟨hports', ?_⟩⟩
  · simpa [ConfigInv] using hcfg
  · simpa [ControlInv] using hctl
  · rw [tickOnce_cfg] at ha
    obtain ⟨hinc, hacc, hzero⟩ := hphase ha
    simpa using ⟨hinc, tickOnce_acc_lt ha hacc, hzero⟩
  · rw [tickOnce_cfg] at hb
    obtain ⟨hsentinel, htps, hone, htotal, hlong, hcount, htcnt⟩ := hint hb
    simpa using ⟨hsentinel, htps, hone, htotal, hlong, tickOnce_counters hb hone hcount htcnt⟩
  · simpa using hrest

/-- A tick that is not refused leaves `REFUSED` and its reason alone. -/
theorem tickOnce_refusal_of_ne_reserved {s : State} (hd : s.dir ≠ .reserved) :
    (tickOnce s).refused = s.refused ∧ (tickOnce s).lastRefusal = s.lastRefusal := by
  obtain ⟨-, e⟩ | ⟨h, -⟩ | ⟨up, -, e⟩ := tickOnce_cases s
  · simp [e]
  · exact absurd h hd
  · simp [e]

theorem inv_tickOnce {s : State} (hs : Inv s) : Inv (tickOnce s) := by
  by_cases hd : s.dir = .reserved
  · rw [tickOnce_reserved hd]
    exact inv_refuse _ hs
  · obtain ⟨hrefused, hlast⟩ := tickOnce_refusal_of_ne_reserved hd
    exact inv_of_builtInv hs (tickOnce_built s) hrefused hlast builtInv_tickOnce

/-! ## Every command and every step -/

/-- Every command keeps `Inv`, constructed block or not. -/
theorem exec_keeps_inv {i : Instr} {s t : State} (hs : Inv s) (h : exec i s = .next t) : Inv t := by
  cases i
  case construct =>
    obtain ⟨hc, rfl⟩ | ⟨-, rfl⟩ := construct_cases h
    · exact (inv_iff _).mpr ⟨by simpa using hs.1, fun _ => builtInv_constructed hc s⟩
    · exact inv_refuse _ hs
  case setvel opd =>
    obtain ⟨-, rfl⟩ | ⟨-, rfl⟩ := setvel_cases h
    · exact inv_refuse _ hs
    · exact inv_of_builtInv hs (by simp) (by simp) (by simp) (builtInv_setVelocity opd)
  case enable =>
    rw [exec_enable, Host.Outcome.next.injEq] at h
    subst h
    exact inv_of_builtInv hs (by simp) (by simp) (by simp) builtInv_enable
  case disable =>
    rw [exec_disable, Host.Outcome.next.injEq] at h
    subst h
    exact inv_of_builtInv hs (by simp) (by simp) (by simp) builtInv_disable
  case tick =>
    rw [exec_tick, Host.Outcome.next.injEq] at h
    subst h
    exact inv_tickOnce hs
  case setpos | setposd =>
    simp only [exec_setpos, exec_setposd, Host.Outcome.next.injEq] at h
    subst h
    exact inv_of_builtInv hs (by simp) (by simp) (by simp) (builtInv_overwritePosition _)
  case getvel | getpos | getposd =>
    simp only [exec_getvel, exec_getpos, exec_getposd, Host.Outcome.next.injEq] at h
    subst h
    exact hs

/-- Settles O31: whatever is presented, a step does nothing, refuses, or runs a command, and each keeps the invariant. -/
theorem stepKeepsInv : Obligations.StepKeepsInv := by
  unfold Obligations.StepKeepsInv
  intro s t hs h
  obtain ⟨-, e⟩ | ⟨p, rest, -, ⟨r, -, e⟩ | ⟨i, -, e⟩⟩ := step_cases s <;> rw [e] at h
  · cases h
    exact hs
  · cases h
    exact inv_refuse r (inv_accept p rest hs)
  · exact exec_keeps_inv (inv_accept p rest hs) h

end Sys2Proof.Machine
end

section
/-! The reserved direction code (R20, R112), and the state before the first `CONSTRUCT`: O26, O54 and O32. -/

namespace Sys2Proof.Machine

theorem dir_code_eq_three_iff (d : Dir) : d.code = 3 ↔ d = .reserved := by cases d <;> decide

/-- Settles O26: a tick with the reserved direction is a refusal. -/
theorem tickRefusesReservedDirection : Obligations.TickRefusesReservedDirection := by
  unfold Obligations.TickRefusesReservedDirection
  intro s hcode
  rw [exec_tick, tickOnce_reserved ((dir_code_eq_three_iff _).mp hcode)]
  rfl

/-- Settles O54: `SETVEL` with the reserved direction is a refusal, whatever its operand. -/
theorem setvelRefusesReservedDirection : Obligations.SetvelRefusesReservedDirection := by
  unfold Obligations.SetvelRefusesReservedDirection
  intro s opd hcode
  rw [exec_setvel, if_pos ((dir_code_eq_three_iff _).mp hcode)]
  rfl

theorem legalConfig_powerOn : legalConfig Config.powerOn = true := by
  rw [legalConfig_iff]
  norm_num [Config.powerOn]

theorem maxVOf_powerOn : maxVOf Config.powerOn = 125 := by
  norm_num [maxVOf, maxVA, Config.powerOn, Config.kA]

theorem maxCodeOf_powerOn : maxCodeOf (maxVOf Config.powerOn) = 8192000 := by
  have hscaled : (125 * 2 ^ Config.fv : ℚ) = (8192000 : ℤ) := by norm_num [Config.fv]
  rw [maxVOf_powerOn, maxCodeOf, hscaled, Int.floor_intCast]
  norm_num

/-- Settles O32: nothing is refused and `BUILT = 0`, and the registers are those of `Config.powerOn`, which is legal. -/
theorem resetMeetsInv : Obligations.ResetMeetsInv := by
  unfold Obligations.ResetMeetsInv
  refine ⟨⟨rfl, nofun⟩, ⟨legalConfig_powerOn, maxVOf_powerOn.symm, maxCodeOf_powerOn.symm⟩, ?_, ?_, nofun⟩
  · exact ⟨nofun, fun _ => rfl, by decide, by decide⟩
  · exact fun _ => ⟨Nat.zero_le _, Nat.two_pow_pos _, fun _ => rfl⟩

end Sys2Proof.Machine
end

section
/-! The output trace only grows at its end (R36): at most three events a command (R124), and O11. -/

namespace Sys2Proof.Machine

/-- `OUTLOG` of `t` is that of `s` with at most `k` events after it. -/
def LogGrows (k : ℕ) (s t : State) : Prop :=
  ∃ events, t.outlog = s.outlog ++ events ∧ events.length ≤ k

theorem LogGrows.of_eq {k : ℕ} {s t : State} (h : t.outlog = s.outlog) : LogGrows k s t :=
  ⟨[], by simp [h], Nat.zero_le k⟩

theorem logGrows_lowerPulse (s : State) : LogGrows 1 s (lowerPulse s) :=
  ⟨_, lowerPulse_outlog s, by split <;> simp⟩

theorem logGrows_driveDirOut (d : Dir) (s : State) : LogGrows 1 s (driveDirOut d s) := by
  rw [driveDirOut_eq]
  exact ⟨_, rfl, by split_ifs <;> simp⟩

@[simp] theorem commitVelocity_outlog (c : ℤ) (d : Dir) (p : TimingParam) (s : State) :
    (commitVelocity c d p s).outlog = (driveDirOut d s).outlog := by
  simp [commitVelocity, driveDirOut_eq]

/-- A tick writes at most one port event (R82, R86, R87). -/
theorem logGrows_tickOnce (s : State) : LogGrows 1 s (tickOnce s) := by
  by_cases hd : s.dir = .reserved
  · rw [tickOnce_reserved hd]
    exact .of_eq rfl
  · obtain ⟨elog, -⟩ | ⟨-, -, elog, -⟩ := tickOnce_lowers_or_fires hd
    · exact ⟨_, elog, by split <;> simp⟩
    · exact ⟨_, elog, by simp⟩

theorem LogGrows.mono {j k : ℕ} {s t : State} (hjk : j ≤ k) (h : LogGrows j s t) : LogGrows k s t := by
  obtain ⟨events, elog, hlen⟩ := h
  exact ⟨events, elog, hlen.trans hjk⟩

theorem exec_logGrows {i : Instr} {s t : State} (h : exec i s = .next t) : LogGrows 3 s t := by
  cases i
  case construct =>
    obtain ⟨-, rfl⟩ | ⟨-, rfl⟩ := construct_cases h
    · rw [constructed_eq]
      exact ⟨_, rfl, by simp⟩
    · exact .of_eq rfl
  case setvel opd =>
    obtain ⟨-, rfl⟩ | ⟨-, rfl⟩ := setvel_cases h
    · exact .of_eq rfl
    · obtain ⟨events, elog, hlen⟩ := logGrows_driveDirOut _ s
      exact ⟨events, by rw [setVelocity, commitVelocity_outlog, elog], by omega⟩
  case enable =>
    rw [exec_enable, Host.Outcome.next.injEq] at h
    subst h
    exact ⟨[(.enOut, s.cfg.enActive)], by simp [driveEnOut], by simp⟩
  case disable =>
    rw [exec_disable, Host.Outcome.next.injEq] at h
    subst h
    obtain ⟨events, elog, hlen⟩ := logGrows_lowerPulse { s with enabled := false }
    refine ⟨events ++ [(.enOut, !s.cfg.enActive)], ?_, by simp; omega⟩
    rw [stopMotor_outlog, driveEnOut, out_outlog, elog, List.append_assoc]
  case tick =>
    rw [exec_tick, Host.Outcome.next.injEq] at h
    subst h
    exact (logGrows_tickOnce s).mono (by omega)
  case getvel | getpos | getposd | setpos | setposd =>
    simp only [exec_getvel, exec_getpos, exec_getposd, exec_setpos, exec_setposd, Host.Outcome.next.injEq] at h
    subst h
    exact .of_eq (by simp)

/-- Settles O11: taking a command up and refusing it write no event, and a command's meaning writes at most three. -/
theorem outlogOnlyGrows : Obligations.OutlogOnlyGrows := by
  unfold Obligations.OutlogOnlyGrows
  intro s t h
  obtain ⟨-, e⟩ | ⟨p, rest, -, ⟨r, -, e⟩ | ⟨i, -, e⟩⟩ := step_cases s <;> rw [e] at h
  · cases h
    exact LogGrows.of_eq rfl
  · cases h
    exact LogGrows.of_eq rfl
  · exact exec_logGrows (s := accept p rest s) h

end Sys2Proof.Machine
end

section
/-! Who writes which register (R18, R42): O27, and the direction of a disabled block (R21): O30. -/

namespace Sys2Proof.Machine

/-- The direction `SETVEL` commits is the converter's (R77). -/
@[simp] theorem setVelocity_dir (opd : Word) (s : State) :
    (setVelocity opd s).dir = (convert s.cfg s.enabled (clampVelocity s.maxCode opd)).1 := by
  simp [setVelocity, commitVelocity]

/-- Settles O27, command by command: the registers outside a command's row are the ones its operations leave alone. -/
theorem writersOfEachRegister : Obligations.WritersOfEachRegister := by
  unfold Obligations.WritersOfEachRegister
  intro i s t h
  refine ⟨exec_sameInputs h, ?_⟩
  cases i
  case construct => simp [setsRate, overwritesPosition]
  case setvel opd =>
    obtain ⟨hd, rfl⟩ | ⟨-, rfl⟩ := setvel_cases h
    · simp [setsRate, overwritesPosition, hd]
    · simp [setsRate, overwritesPosition]
  case tick =>
    rw [exec_tick, Host.Outcome.next.injEq] at h
    subst h
    simpa [setsRate, overwritesPosition] using tickOnce_refusal_of_ne_reserved
  case enable | disable =>
    simp only [exec_enable, exec_disable, Host.Outcome.next.injEq] at h
    subst h
    simp [setsRate, overwritesPosition]
  case setpos | setposd =>
    simp only [exec_setpos, exec_setposd, Host.Outcome.next.injEq] at h
    subst h
    simp [setsRate, overwritesPosition]
  case getvel | getpos | getposd =>
    simp only [exec_getvel, exec_getpos, exec_getposd, Host.Outcome.next.injEq] at h
    subst h
    simp [setsRate, overwritesPosition]

/-- A `SETVEL` that leaves a direction other than Stopped found the block enabled, or found the reserved code and left
it (R20, R63). -/
theorem setvel_dir_ne_stopped {opd : Word} {s t : State} (h : exec (.setvel opd) s = .next t)
    (hd : t.dir ≠ .stopped) :
    s.enabled = true ∨ (s.dir = .reserved ∧ t.dir = s.dir) := by
  obtain ⟨hres, rfl⟩ | ⟨-, rfl⟩ := setvel_cases h
  · exact .inr ⟨hres, refuse_dir _ _⟩
  · rw [setVelocity_dir] at hd
    exact .inl (Bool.eq_true_of_not_eq_false fun hoff => hd ((convert_dir _ _ _).2 hoff))

theorem constructed_dir (c : Config) (s : State) : (constructed c s).dir = .stopped := by rw [constructed_eq]

theorem enable_or_disable_dir {s t : State} (h : exec .enable s = .next t ∨ exec .disable s = .next t) :
    t.dir = .stopped := by
  simp only [exec_enable, exec_disable, Host.Outcome.next.injEq] at h
  obtain rfl | rfl := h <;> exact stopMotor_dir _

/-- R21: a disabled block is Stopped. -/
def StoppedIfDisabled (s : State) : Prop := s.enabled = false → s.dir = .stopped

theorem exec_keeps_stoppedIfDisabled {i : Instr} {s t : State} (hs : StoppedIfDisabled s) (h : exec i s = .next t) :
    StoppedIfDisabled t := by
  cases i
  case construct =>
    obtain ⟨-, rfl⟩ | ⟨-, rfl⟩ := construct_cases h
    · exact fun _ => constructed_dir _ s
    · exact hs
  case enable => exact fun _ => enable_or_disable_dir (.inl h)
  case disable => exact fun _ => enable_or_disable_dir (.inr h)
  case setvel opd =>
    obtain ⟨-, rfl⟩ | ⟨-, rfl⟩ := setvel_cases h
    · exact hs
    · intro hoff
      rw [setVelocity_enabled] at hoff
      rw [setVelocity_dir]
      exact (convert_dir _ _ _).2 hoff
  case tick | setpos | setposd | getvel | getpos | getposd =>
    simp only [exec_tick, exec_setpos, exec_setposd, exec_getvel, exec_getpos, exec_getposd,
      Host.Outcome.next.injEq] at h
    subst h
    simpa [StoppedIfDisabled] using hs

/-- Settles O30: the commands that disable or write the direction leave a disabled block Stopped, the others write
neither register. -/
theorem disabledIsStopped : Obligations.DisabledIsStopped := by
  unfold Obligations.DisabledIsStopped
  refine ⟨fun s t hs h => ?_, fun s t hc h => ?_, fun s t => enable_or_disable_dir,
    fun s t opd => setvel_dir_ne_stopped⟩
  · obtain ⟨-, e⟩ | ⟨p, rest, -, ⟨r, -, e⟩ | ⟨i, -, e⟩⟩ := step_cases s <;> rw [e] at h
    · cases h
      exact hs
    · cases h
      exact hs
    · exact exec_keeps_stoppedIfDisabled (s := accept p rest s) hs h
  · rw [exec_construct, if_pos ((legalRanges_iff_legalConfig _).mp hc), Host.Outcome.next.injEq] at h
    rw [← h, constructed_dir]

end Sys2Proof.Machine
end

section
/-! The registers absent under the configured strategy (R35): O29, that no command writes them, and O28, that none reads
them. -/

namespace Sys2Proof.Machine

/-- The converter answers the TimingParameter of strategy A (R66). -/
theorem convert_phase {c : Config} (h : c.strategy = .a) (enabled : Bool) (code : ℤ) :
    ∃ inc, (convert c enabled code).2 = .phase inc := by
  obtain ⟨-, e⟩ | ⟨-, -, e⟩ := convert_cases c enabled code <;> simp [e, sentinel, runningTiming, h]

/-- The converter answers the TimingParameter of strategy B (R69). -/
theorem convert_interval {c : Config} (h : c.strategy = .b) (enabled : Bool) (code : ℤ) :
    ∃ tps dtotal dlong, (convert c enabled code).2 = .interval tps dtotal dlong := by
  obtain ⟨-, e⟩ | ⟨-, -, e⟩ := convert_cases c enabled code <;> simp [e, sentinel, runningTiming, h]

/-! ## Unwritten -/

/-- The registers absent under the strategy of `t` are those of `s`. -/
def KeepsAbsent (s t : State) : Prop :=
  (t.cfg.strategy = .a → t.tps = s.tps ∧ t.dtotal = s.dtotal ∧ t.dlong = s.dlong ∧ t.dcount = s.dcount ∧
    t.tcnt = s.tcnt) ∧
  (t.cfg.strategy = .b → t.inc = s.inc ∧ t.acc = s.acc)

theorem keepsAbsent_setVelocity (opd : Word) (s : State) : KeepsAbsent s (setVelocity opd s) := by
  unfold KeepsAbsent
  rw [setVelocity_cfg]
  refine ⟨fun ha => ?_, fun hb => ?_⟩ <;> unfold setVelocity <;> dsimp only
  · obtain ⟨inc, e⟩ := convert_phase ha s.enabled (clampVelocity s.maxCode opd)
    simp [e, commitVelocity_phase _ _ _ _ ha]
  · obtain ⟨tps, dtotal, dlong, e⟩ := convert_interval hb s.enabled (clampVelocity s.maxCode opd)
    simp [e, commitVelocity_interval _ _ _ _ _ _ hb]

theorem keepsAbsent_tickOnce (s : State) : KeepsAbsent s (tickOnce s) := by
  unfold KeepsAbsent
  rw [tickOnce_cfg]
  obtain ⟨-, e⟩ | ⟨-, e⟩ | ⟨up, -, e⟩ := tickOnce_cases s <;> rw [e]
  · simp +contextual [holdStopped_eq]
  · simp
  · refine ⟨fun ha => ?_, fun hb => ?_⟩
    · rw [advance_phase _ _ (by simpa using ha)]
      simp
    · rw [advance_count _ _ (by simpa using hb)]
      simp

theorem exec_keepsAbsent {i : Instr} {s t : State} (h : exec i s = .next t) : KeepsAbsent s t := by
  cases i
  case construct =>
    obtain ⟨-, rfl⟩ | ⟨-, rfl⟩ := construct_cases h
    · simp +contextual [KeepsAbsent, constructed_eq]
    · simp [KeepsAbsent]
  case setvel opd =>
    obtain ⟨-, rfl⟩ | ⟨-, rfl⟩ := setvel_cases h
    · simp [KeepsAbsent]
    · exact keepsAbsent_setVelocity opd s
  case tick =>
    rw [exec_tick, Host.Outcome.next.injEq] at h
    subst h
    exact keepsAbsent_tickOnce s
  case enable | disable =>
    simp only [exec_enable, exec_disable, Host.Outcome.next.injEq] at h
    subst h
    simp +contextual [KeepsAbsent, stopMotor_eq]
  case setpos | setposd =>
    simp only [exec_setpos, exec_setposd, Host.Outcome.next.injEq] at h
    subst h
    simp +contextual [KeepsAbsent, overwritePosition_eq]
  case getvel | getpos | getposd =>
    simp only [exec_getvel, exec_getpos, exec_getposd, Host.Outcome.next.injEq] at h
    subst h
    simp [KeepsAbsent]

/-- Settles O29: a write to a register that exists under one strategy alone is a write under that strategy alone. -/
theorem absentRegistersUnwritten : Obligations.AbsentRegistersUnwritten := by
  unfold Obligations.AbsentRegistersUnwritten
  exact fun i s t h => exec_keepsAbsent h

/-! ## Unread

Blotting the absent registers out before an operation or after it is the same: the operation reads none of them. -/

theorem withoutAbsent_a {s : State} (h : s.cfg.strategy = .a) :
    withoutAbsent s = { s with tps := 0, dtotal := 0, dlong := 0, dcount := 0, tcnt := 0 } := by
  simp only [withoutAbsent, h]

theorem withoutAbsent_b {s : State} (h : s.cfg.strategy = .b) : withoutAbsent s = { s with inc := 0, acc := 0 } := by
  simp only [withoutAbsent, h]

@[simp] theorem withoutAbsent_cfg (s : State) : (withoutAbsent s).cfg = s.cfg := by unfold withoutAbsent; split <;> rfl

@[simp] theorem withoutAbsent_maxCode (s : State) : (withoutAbsent s).maxCode = s.maxCode := by
  unfold withoutAbsent; split <;> rfl

@[simp] theorem withoutAbsent_enabled (s : State) : (withoutAbsent s).enabled = s.enabled := by
  unfold withoutAbsent; split <;> rfl

@[simp] theorem withoutAbsent_dir (s : State) : (withoutAbsent s).dir = s.dir := by
  unfold withoutAbsent; split <;> rfl

@[simp] theorem withoutAbsent_vel (s : State) : (withoutAbsent s).vel = s.vel := by
  unfold withoutAbsent; split <;> rfl

@[simp] theorem withoutAbsent_pos (s : State) : (withoutAbsent s).pos = s.pos := by
  unfold withoutAbsent; split <;> rfl

@[simp] theorem withoutAbsent_pulse (s : State) : (withoutAbsent s).pulse = s.pulse := by
  unfold withoutAbsent; split <;> rfl

@[simp] theorem withoutAbsent_cfgIn (s : State) : (withoutAbsent s).cfgIn = s.cfgIn := by
  unfold withoutAbsent; split <;> rfl

theorem withoutAbsent_idem (s : State) : withoutAbsent (withoutAbsent s) = withoutAbsent s := by
  cases h : s.cfg.strategy <;> simp [withoutAbsent, h]

theorem refuse_withoutAbsent (r : RefusalReason) (s : State) :
    refuse r (withoutAbsent s) = withoutAbsent (refuse r s) := by
  cases h : s.cfg.strategy <;> simp [withoutAbsent, refuse, h]

theorem driveEnOut_withoutAbsent (l : Level) (s : State) :
    driveEnOut l (withoutAbsent s) = withoutAbsent (driveEnOut l s) := by
  cases h : s.cfg.strategy <;> simp [withoutAbsent, driveEnOut, out, h]

theorem lowerPulse_withoutAbsent (s : State) : lowerPulse (withoutAbsent s) = withoutAbsent (lowerPulse s) := by
  cases h : s.cfg.strategy <;> simp [withoutAbsent, lowerPulse_eq, h]

theorem stopMotor_withoutAbsent (s : State) : stopMotor (withoutAbsent s) = withoutAbsent (stopMotor s) := by
  cases h : s.cfg.strategy <;> simp [withoutAbsent, stopMotor_eq, h]

theorem holdStopped_withoutAbsent (s : State) : holdStopped (withoutAbsent s) = withoutAbsent (holdStopped s) := by
  cases h : s.cfg.strategy <;> simp [withoutAbsent, holdStopped_eq, h]

theorem overwritePosition_withoutAbsent (n : ℤ) (s : State) :
    overwritePosition n (withoutAbsent s) = withoutAbsent (overwritePosition n s) := by
  cases h : s.cfg.strategy <;> simp [withoutAbsent, overwritePosition_eq, h]

theorem advancePhase_withoutAbsent (hp up : Bool) {s : State} (h : s.cfg.strategy = .a) :
    advancePhase hp up (withoutAbsent s) = withoutAbsent (advancePhase hp up s) := by
  have hacc : (withoutAbsent s).acc = s.acc := by rw [withoutAbsent_a h]
  have hnext : nextPhase up (withoutAbsent s) = nextPhase up s := by rw [withoutAbsent_a h]; rfl
  simp only [advancePhase, hacc, hnext]
  split_ifs <;> simp [withoutAbsent, fire, out, h]

theorem advanceCount_withoutAbsent (hp up : Bool) {s : State} (h : s.cfg.strategy = .b) :
    advanceCount hp up (withoutAbsent s) = withoutAbsent (advanceCount hp up s) := by
  have hcount : nextCount (withoutAbsent s) = nextCount s := by rw [withoutAbsent_b h]; rfl
  have htarget : target (withoutAbsent s) = target s := by rw [withoutAbsent_b h]; rfl
  simp only [advanceCount, hcount, htarget]
  split_ifs <;> simp [withoutAbsent, fire, out, h]

theorem advance_withoutAbsent (hp up : Bool) (s : State) :
    advance hp up (withoutAbsent s) = withoutAbsent (advance hp up s) := by
  cases h : s.cfg.strategy
  · rw [advance_phase _ _ h, advance_phase _ _ (by simpa using h), advancePhase_withoutAbsent hp up h]
  · rw [advance_count _ _ h, advance_count _ _ (by simpa using h), advanceCount_withoutAbsent hp up h]

theorem tickOnce_withoutAbsent (s : State) : tickOnce (withoutAbsent s) = withoutAbsent (tickOnce s) := by
  cases h : s.dir <;>
    simp [tickOnce, h, lowerPulse_withoutAbsent, holdStopped_withoutAbsent, advance_withoutAbsent,
      refuse_withoutAbsent]

theorem driveDirOut_withoutAbsent (d : Dir) (s : State) :
    driveDirOut d (withoutAbsent s) = withoutAbsent (driveDirOut d s) := by
  cases h : s.cfg.strategy <;> simp [withoutAbsent, driveDirOut_eq, h]

theorem setVelocity_withoutAbsent (opd : Word) (s : State) :
    setVelocity opd (withoutAbsent s) = withoutAbsent (setVelocity opd s) := by
  unfold setVelocity
  simp only [withoutAbsent_cfg, withoutAbsent_enabled, withoutAbsent_maxCode]
  cases h : s.cfg.strategy
  · obtain ⟨inc, e⟩ := convert_phase h s.enabled (clampVelocity s.maxCode opd)
    rw [e, commitVelocity_phase _ _ _ _ h, commitVelocity_phase _ _ _ _ (by simpa using h), driveDirOut_withoutAbsent]
    simp [withoutAbsent, h]
  · obtain ⟨tps, dtotal, dlong, e⟩ := convert_interval h s.enabled (clampVelocity s.maxCode opd)
    rw [e, commitVelocity_interval _ _ _ _ _ _ h, commitVelocity_interval _ _ _ _ _ _ (by simpa using h),
      driveDirOut_withoutAbsent]
    simp [withoutAbsent, h]

/-- `CONSTRUCT` may change the strategy, so it is the result that is blotted out on both sides. -/
theorem constructed_withoutAbsent (c : Config) (s : State) :
    withoutAbsent (constructed c (withoutAbsent s)) = withoutAbsent (constructed c s) := by
  cases hs : s.cfg.strategy <;> cases hc : c.strategy <;> simp [withoutAbsent, constructed_eq, hs, hc]

/-- The registers that `ENABLE`, `DISABLE` and the getters write themselves exist under either strategy. -/
theorem setEnabled_withoutAbsent (b : Bool) (s : State) :
    { withoutAbsent s with enabled := b } = withoutAbsent { s with enabled := b } := by
  cases h : s.cfg.strategy <;> simp [withoutAbsent, h]

theorem setResult_withoutAbsent (w : Word) (s : State) :
    { withoutAbsent s with result := w } = withoutAbsent { s with result := w } := by
  cases h : s.cfg.strategy <;> simp [withoutAbsent, h]

theorem exec_withoutAbsent_of_ne_construct {i : Instr} {s t : State} (hi : i ≠ .construct) (h : exec i s = .next t) :
    exec i (withoutAbsent s) = .next (withoutAbsent t) := by
  cases i
  case construct => exact absurd rfl hi
  case setvel opd =>
    rw [exec_setvel, withoutAbsent_dir]
    obtain ⟨hd, rfl⟩ | ⟨hd, rfl⟩ := setvel_cases h
    · rw [if_pos hd, refuse_withoutAbsent]
    · rw [if_neg hd, setVelocity_withoutAbsent]
  case tick =>
    rw [exec_tick, Host.Outcome.next.injEq] at h
    rw [exec_tick, tickOnce_withoutAbsent, h]
  case enable | disable =>
    simp only [exec_enable, exec_disable, Host.Outcome.next.injEq] at h ⊢
    simp only [setEnabled_withoutAbsent, lowerPulse_withoutAbsent, driveEnOut_withoutAbsent, stopMotor_withoutAbsent]
    simp only [withoutAbsent_cfg, h]
  case setpos | setposd =>
    simp only [exec_setpos, exec_setposd, Host.Outcome.next.injEq] at h ⊢
    simp only [withoutAbsent_cfg, overwritePosition_withoutAbsent, h]
  case getvel | getpos | getposd =>
    simp only [exec_getvel, exec_getpos, exec_getposd, Host.Outcome.next.injEq] at h ⊢
    simp only [setResult_withoutAbsent]
    simp only [withoutAbsent_cfg, withoutAbsent_vel, withoutAbsent_pos, h]

/-- Blotting the absent registers out before a command changes no other register after it. -/
theorem exec_withoutAbsent {i : Instr} {s t : State} (h : exec i s = .next t) :
    ∃ u, exec i (withoutAbsent s) = .next u ∧ withoutAbsent u = withoutAbsent t := by
  by_cases hi : i = .construct
  · subst hi
    refine ⟨_, exec_construct _, ?_⟩
    rw [withoutAbsent_cfgIn]
    obtain ⟨hc, rfl⟩ | ⟨hc, rfl⟩ := construct_cases h
    · rw [if_pos hc, constructed_withoutAbsent]
    · rw [if_neg (by simp [hc]), refuse_withoutAbsent, withoutAbsent_idem]
  · exact ⟨_, exec_withoutAbsent_of_ne_construct hi h, withoutAbsent_idem t⟩

/-- Settles O28: both states are led to what the blotted state they share is led to. -/
theorem absentRegistersUnread : Obligations.AbsentRegistersUnread := by
  unfold Obligations.AbsentRegistersUnread
  intro i s t s' t' hst hs ht
  obtain ⟨u, hu, eu⟩ := exec_withoutAbsent hs
  obtain ⟨v, hv, ev⟩ := exec_withoutAbsent ht
  rw [hst, hv, Host.Outcome.next.injEq] at hu
  rw [← eu, ← ev, hu]

end Sys2Proof.Machine
end

section
/-! The fractional position of strategy A (R30, R91): O41. -/

namespace Sys2Proof.Machine

/-- The sign of a step up or down (R86). -/
def upSign (up : Bool) : ℤ := if up then 1 else -1

/-- The accumulator moves by `±INC`, less the whole step of `±2^N` that a wrap carries out of it (R84). -/
theorem nextPhase_eq (up : Bool) {s : State} (hacc : s.acc < 2 ^ s.cfg.n) (hinc : s.inc < 2 ^ s.cfg.n) :
    (nextPhase up s : ℤ) =
      s.acc + upSign up * (s.inc - if wrapped up s.acc (nextPhase up s) then 2 ^ s.cfg.n else 0) := by
  have hpow : ((2 ^ s.cfg.n : ℕ) : ℤ) = 2 ^ s.cfg.n := by push_cast; rfl
  rw [← hpow]
  cases up
  · rw [wrapped_down hacc hinc, nextPhase_down hacc hinc.le]
    simp only [upSign, decide_eq_true_eq, Bool.false_eq_true, if_false]
    split_ifs <;> omega
  · rw [wrapped_up hacc hinc, nextPhase_up hacc hinc.le]
    simp only [upSign, decide_eq_true_eq, if_true]
    split_ifs <;> omega

/-- A step away from the wrap of `POS` (R86, R95). -/
theorem fire_pos_toInt (up : Bool) {s : State} (hlo : -2147483648 < s.pos.toInt) (hhi : s.pos.toInt < 2147483647) :
    (fire up s).pos.toInt = s.pos.toInt + upSign up := by
  rw [fire_pos]
  exact code32_toInt (by cases up <;> simp <;> omega) (by cases up <;> simp <;> omega)

@[simp] theorem fractionalPosition_lowerPulse (s : State) :
    fractionalPosition (lowerPulse s) = fractionalPosition s := by
  simp [fractionalPosition]

/-- Strategy A's advance moves the fractional position by exactly `±INC / 2^N`, or defers a wrap and moves nothing
(R91): what a wrap takes from the accumulator it gives to `POS`. -/
theorem advancePhase_moves (hp up : Bool) {s : State} (hinc : s.inc < 2 ^ s.cfg.n) (hacc : s.acc < 2 ^ s.cfg.n)
    (hlo : -2147483648 < s.pos.toInt) (hhi : s.pos.toInt < 2147483647) :
    fractionalPosition (advancePhase hp up s) = fractionalPosition s + upSign up * (s.inc / 2 ^ s.cfg.n) ∨
    (hp = true ∧ wrapped up s.acc (nextPhase up s) = true ∧
      fractionalPosition (advancePhase hp up s) = fractionalPosition s) := by
  have hpow : (2 ^ s.cfg.n : ℚ) ≠ 0 := by positivity
  have hnext : ((nextPhase up s : ℤ) : ℚ) = _ := congrArg _ (nextPhase_eq up hacc hinc)
  obtain ⟨hw, hhp, e⟩ | ⟨hw, -, e⟩ | ⟨hw, e⟩ := advancePhase_cases hp up s
  · exact .inr ⟨hhp, hw, by rw [e]⟩
  · left
    have hpos := fire_pos_toInt up (s := { s with acc := nextPhase up s }) hlo hhi
    simp only [hw, if_true] at hnext
    push_cast at hnext
    simp only [e, fractionalPosition, hpos, fire_acc, fire_cfg, hnext]
    push_cast
    field_simp
    ring
  · left
    simp only [hw, Bool.false_eq_true, if_false, sub_zero] at hnext
    push_cast at hnext
    simp only [e, fractionalPosition, hnext]
    field_simp
    ring

theorem tickOnce_moves {s : State} {up : Bool} (ha : s.cfg.strategy = .a)
    (hd : s.dir = (if up then .positive else .negative)) (hinc : s.inc < 2 ^ s.cfg.n) (hacc : s.acc < 2 ^ s.cfg.n)
    (hlo : -2147483648 < s.pos.toInt) (hhi : s.pos.toInt < 2147483647) :
    fractionalPosition (tickOnce s) = fractionalPosition s + upSign up * (s.inc / 2 ^ s.cfg.n) ∨
    (s.pulse = true ∧ wrapped up s.acc (nextPhase up s) = true ∧
      fractionalPosition (tickOnce s) = fractionalPosition s) := by
  rw [tickOnce_running hd, advance_phase _ _ (by simpa using ha)]
  simpa using advancePhase_moves s.pulse up (s := lowerPulse s) (by simpa using hinc) (by simpa using hacc)
    (by simpa using hlo) (by simpa using hhi)

theorem tickOnce_fractionalPosition_of_stopped {s : State} (hd : s.dir = .stopped) :
    fractionalPosition (tickOnce s) = fractionalPosition s := by
  simp [tickOnce_stopped hd, holdStopped_eq, fractionalPosition]

/-- A Negative tick from `ACC = 0` with the pulse low fires (R84, R87). -/
theorem tickOnce_fires_of_acc_zero {s : State} (ha : s.cfg.strategy = .a) (hd : s.dir = .negative)
    (hp : s.pulse = false) (hacc : s.acc = 0) (hpos : 0 < s.inc) (hinc : s.inc < 2 ^ s.cfg.n) :
    (tickOnce s).pos = s.pos - 1 ∧ (tickOnce s).pulse = true := by
  have hw : wrapped false s.acc (nextPhase false s) = true := by
    rw [wrapped_down (by omega) hinc]
    simpa [hacc] using hpos
  rw [tickOnce_negative hd, advance_phase _ _ (by simpa using ha)]
  obtain ⟨-, hhp, -⟩ | ⟨-, -, e⟩ | ⟨hnw, -⟩ := advancePhase_cases s.pulse false (lowerPulse s)
  · simp [hp] at hhp
  · rw [e, fire_pos_word]
    simp
  · simp [hw] at hnw

/-- Settles O41: a tick moves as its advance does, and an overwrite leaves `ACC = 0`, from where a Negative tick
wraps. -/
theorem fractionalPositionMoves : Obligations.FractionalPositionMoves := by
  unfold Obligations.FractionalPositionMoves
  constructor
  · intro s t ha hinc hacc hlo hhi h
    rw [exec_tick, Host.Outcome.next.injEq] at h
    subst h
    refine ⟨fun hd => ?_, fun hd => ?_, tickOnce_fractionalPosition_of_stopped⟩
    · have hmove := tickOnce_moves (up := true) ha hd hinc hacc hlo hhi
      rw [wrapped_up hacc hinc] at hmove
      simpa [upSign] using hmove
    · have hmove := tickOnce_moves (up := false) ha hd hinc hacc hlo hhi
      rw [wrapped_down hacc hinc] at hmove
      simpa [upSign, sub_eq_add_neg] using hmove
  · intro s t u n ha hd hp hpos hinc ht hu
    rw [exec_setpos, Host.Outcome.next.injEq] at ht
    rw [exec_tick, Host.Outcome.next.injEq] at hu
    subst ht hu
    obtain ⟨hstep, hrise⟩ := tickOnce_fires_of_acc_zero (s := overwritePosition (sint n) s)
      (by simpa using ha) (by simpa using hd) (by simpa using hp) (by simp [overwritePosition_eq, ha])
      (by simpa using hpos) (by simpa using hinc)
    refine ⟨?_, hrise⟩
    rw [hstep, overwritePosition_eq, sint, code32_toInt_self]

end Sys2Proof.Machine
end

section
/-! The encoder against the decoder (R51 to R55): which words are encodings, what the decoder answers to each kind of
word, and O2. -/

namespace Sys2Proof

/-- A word is a command's encoding when both of its fields are the command's (R51). -/
theorem eq_encode_iff {w : CommandWord} {i : Instr} : w = encode i ↔ opcOf w = opcode i ∧ opdOf w = operand i := by
  constructor
  · rintro rfl
    simp
  · rintro ⟨hopc, hopd⟩
    rw [encode, ← hopc, ← hopd, opc_append_opd]

theorem hasDefinedOpcode_commandOf {w : CommandWord} :
    (commandOf w).hasDefinedOpcode = true ↔ opcOf w ∈ definedOpcodes := by
  simp [Command.hasDefinedOpcode, commandOf]

theorem hasLegalOperand_commandOf {w : CommandWord} :
    (commandOf w).hasLegalOperand = true ↔ (opcOf w ∈ zFormatOpcodes → opdOf w = 0) := by
  simp [Command.hasLegalOperand, commandOf, imp_iff_not_or]

/-- The opcode map (R53) read the other way: a defined opcode, with no operand where there is none, is a command's. -/
theorem exists_eq_encode {w : CommandWord} (hopc : opcOf w ∈ definedOpcodes)
    (hopd : opcOf w ∈ zFormatOpcodes → opdOf w = 0) : ∃ i, w = encode i := by
  simp only [eq_encode_iff]
  simp only [definedOpcodes, List.mem_cons, List.not_mem_nil, or_false] at hopc
  obtain h | h | h | h | h | h | h | h | h | h := hopc
  · exact ⟨.construct, h, hopd (by rw [h]; decide)⟩
  · exact ⟨.enable, h, hopd (by rw [h]; decide)⟩
  · exact ⟨.disable, h, hopd (by rw [h]; decide)⟩
  · exact ⟨.setvel (opdOf w), h, rfl⟩
  · exact ⟨.getvel, h, hopd (by rw [h]; decide)⟩
  · exact ⟨.setpos (opdOf w), h, rfl⟩
  · exact ⟨.setposd (opdOf w), h, rfl⟩
  · exact ⟨.getpos, h, hopd (by rw [h]; decide)⟩
  · exact ⟨.getposd, h, hopd (by rw [h]; decide)⟩
  · exact ⟨.tick, h, hopd (by rw [h]; decide)⟩

@[simp] theorem decodeWord_encode (i : Instr) : decodeWord (encode i) = .ok i := by
  unfold decodeWord
  rw [opcOf_encode, opdOf_encode]
  cases i <;> rfl

/-- The first check of R54. -/
theorem decodeWord_of_reserved {w : CommandWord} (h : opcOf w ∉ definedOpcodes) :
    decodeWord w = .error .reservedOpcode := by
  have hne (n : ℕ) (hn : BitVec.ofNat 8 n ∈ definedOpcodes) : (opcOf w).toNat ≠ n := by
    rintro rfl
    exact h (by simpa using hn)
  unfold decodeWord
  split
  case h_11 => rfl
  all_goals next hopc => exact absurd hopc (hne _ (by decide))

/-- The second check of R54. -/
theorem decodeWord_of_nonZero {w : CommandWord} (hz : opcOf w ∈ zFormatOpcodes) (hopd : opdOf w ≠ 0) :
    decodeWord w = .error .nonZeroOperand := by
  have hzFormat (i : Instr) : zFormat (opdOf w) i = .error .nonZeroOperand := zFormat_error.mpr ⟨hopd, rfl⟩
  simp only [zFormatOpcodes, List.mem_cons, List.not_mem_nil, or_false] at hz
  unfold decodeWord
  obtain h | h | h | h | h | h | h := hz <;> rw [h] <;> exact hzFormat _

/-- Settles O2: a word that is no encoding fails one of the two checks, and an encoding decodes to its command alone. -/
theorem decodeEncodeAgree : Obligations.DecodeEncodeAgree := by
  unfold Obligations.DecodeEncodeAgree
  intro w i
  constructor
  · intro h
    have hopc : opcOf w ∈ definedOpcodes := by
      by_contra hres
      simp [decodeWord_of_reserved hres] at h
    have hopd : opcOf w ∈ zFormatOpcodes → opdOf w = 0 := by
      intro hz
      by_contra hne
      simp [decodeWord_of_nonZero hz hne] at h
    obtain ⟨j, rfl⟩ := exists_eq_encode hopc hopd
    rw [decodeWord_encode, Except.ok.injEq] at h
    rw [h]
  · rintro rfl
    exact decodeWord_encode i

end Sys2Proof
end

section
/-! The four checks of R54 in their order, and O3. -/

namespace Sys2Proof

theorem decode_of_error {w : CommandWord} {r : RefusalReason} (h : decodeWord w = .error r) (agent : Agent)
    (built : Bool) : decode w agent built = .error r := by
  simp only [decode, h]

/-- What the last two checks of R54 make of a command's word. -/
theorem decode_encode (i : Instr) (agent : Agent) (built : Bool) :
    decode (encode i) agent built =
      if issuer i ≠ agent then .error .wrongContext
      else if built = false ∧ i ≠ .construct then .error .notConstructed
      else .ok i := by
  simp only [decode, decodeWord_encode]

theorem opcode_eq_construct_iff (i : Instr) : opcode i = 0x01 ↔ i = .construct := by cases i <;> simp [opcode]

theorem opcode_eq_tick_iff (i : Instr) : opcode i = 0x30 ↔ i = .tick := by cases i <;> simp [opcode]

/-- The check of the issuer by the opcode and the decoder's by the command are one (R53). -/
theorem issuedBy_encode_iff (i : Instr) (agent : Agent) :
    (commandOf (encode i)).issuedBy agent = true ↔ issuer i = agent := by
  rw [Command.issuedBy, beq_iff_eq, Bool.eq_iff_iff]
  simp only [commandOf, opcOf_encode, beq_iff_eq, opcode_eq_tick_iff, ← tick_issuer_iff]
  cases issuer i <;> cases agent <;> decide

/-- Settles O3: each failed check is a lemma's hypothesis, and a word that passes the first two is an encoding. -/
theorem decodeChecksInOrder : Obligations.DecodeChecksInOrder := by
  unfold Obligations.DecodeChecksInOrder
  intro w agent built
  split_ifs with hres hnz hiss hbuilt
  · rw [← Bool.not_eq_true, hasDefinedOpcode_commandOf] at hres
    exact decode_of_error (decodeWord_of_reserved hres) agent built
  · rw [← Bool.not_eq_true, hasLegalOperand_commandOf, Classical.not_imp] at hnz
    obtain ⟨hz, hne⟩ := hnz
    exact decode_of_error (decodeWord_of_nonZero hz hne) agent built
  all_goals
    rw [Bool.not_eq_false, hasDefinedOpcode_commandOf] at hres
    rw [Bool.not_eq_false, hasLegalOperand_commandOf] at hnz
    obtain ⟨i, rfl⟩ := exists_eq_encode hres hnz
    rw [← Bool.not_eq_true, issuedBy_encode_iff] at hiss
    rw [decode_encode]
  · exact if_pos hiss
  · rw [opcOf_encode, ne_eq, opcode_eq_construct_iff] at hbuilt
    rw [if_neg hiss, if_pos hbuilt]
  · rw [opcOf_encode, ne_eq, opcode_eq_construct_iff] at hbuilt
    rw [if_neg hiss, if_neg hbuilt]
    exact ⟨i, rfl, (opcOf_encode i).symm, (opdOf_encode i).symm⟩

end Sys2Proof
end

section
/-! What a step does with the decoder's answer (R54, R112), O7 and O4. -/

namespace Sys2Proof.Machine

theorem step_of_decode_ok {s : State} {p : Presented} {rest : List Presented} {i : Instr} (hs : s.pending = p :: rest)
    (hd : decode p.word p.agent s.built = .ok i) : step s = exec i (accept p rest s) := by
  simp only [step, hs, hd]

theorem step_of_decode_error {s : State} {p : Presented} {rest : List Presented} {r : RefusalReason}
    (hs : s.pending = p :: rest) (hd : decode p.word p.agent s.built = .error r) :
    step s = .next (refuse r (accept p rest s)) := by
  simp only [step, hs, hd]

/-- Settles O7: `accept` is the state the statement writes out. -/
theorem stepRunsDecodedCommand : Obligations.StepRunsDecodedCommand := by
  unfold Obligations.StepRunsDecodedCommand
  intro s p rest i hs hd
  exact step_of_decode_ok hs hd

theorem length_filter_not_range (p : ℕ → Bool) (n : ℕ) :
    ((List.range n).filter fun k => !p k).length = n - ((List.range n).filter p).length := by
  have hsplit := List.length_eq_length_filter_add (l := List.range n) p
  rw [List.length_range] at hsplit
  omega

/-- The numbers below 256 that are defined opcodes are those of the map, each once. -/
theorem filter_definedOpcodes_perm :
    ((List.range 256).filter fun n => definedOpcodes.contains (BitVec.ofNat 8 n)).Perm
      (definedOpcodes.map BitVec.toNat) := by
  refine (List.perm_ext_iff_of_nodup (List.nodup_range.filter _) (by decide)).mpr fun n => ?_
  rw [List.mem_filter, List.mem_range, List.contains_iff_mem, List.mem_map]
  constructor
  · rintro ⟨hn, hmem⟩
    exact ⟨_, hmem, by rw [BitVec.toNat_ofNat, Nat.mod_eq_of_lt hn]⟩
  · rintro ⟨c, hc, rfl⟩
    exact ⟨c.isLt, by rwa [BitVec.ofNat_toNat, BitVec.setWidth_eq]⟩

/-- R55's count: the map's ten opcodes leave 246 of the 256. -/
theorem reservedOpcodes_length :
    ((List.range 256).filter fun n => !definedOpcodes.contains (BitVec.ofNat 8 n)).length = 246 := by
  rw [length_filter_not_range fun n => definedOpcodes.contains (BitVec.ofNat 8 n), filter_definedOpcodes_perm.length_eq]
  rfl

/-- Settles O4: the decoder answers both kinds of word before it looks at the issuer or at `BUILT`. -/
theorem reservedOpcodesRefused : Obligations.ReservedOpcodesRefused := by
  unfold Obligations.ReservedOpcodesRefused
  refine ⟨reservedOpcodes_length, ?_, ?_⟩
  · intro s p rest hs hres
    exact step_of_decode_error hs (decode_of_error (decodeWord_of_reserved hres) _ _)
  · intro s p rest hs hz hne
    exact step_of_decode_error hs (decode_of_error (decodeWord_of_nonZero hz hne) _ _)

end Sys2Proof.Machine
end

section
/-! The assembler (R57, R58, R59): the code of a legal operand, and O5, O1 and O6. -/

namespace Sys2Proof.Machine

theorem fitsWord_iff (n : ℤ) : fitsWord n = true ↔ -2147483648 ≤ n ∧ n ≤ 2147483647 := by simp [fitsWord]

theorem fitsWord_toInt (code : Word) : fitsWord code.toInt = true :=
  (fitsWord_iff _).mpr ⟨BitVec.le_toInt code, Int.le_of_lt_add_one BitVec.toInt_lt⟩

theorem assembleSteps_isSome (n : ℤ) : (assembleSteps n).isSome = fitsWord n := by
  rw [Bool.eq_iff_iff]
  simp [assembleSteps]

/-- An S operand assembles to the code of exactly its value (R57). -/
theorem assembleSteps_toInt {n : ℤ} {code : Word} (h : assembleSteps n = some code) : code.toInt = n := by
  rw [assembleSteps, Option.ite_none_right_eq_some, Option.some.injEq, fitsWord_iff] at h
  obtain ⟨⟨hlo, hhi⟩, rfl⟩ := h
  exact code32_toInt hlo hhi

/-- The check of R57 on the integer `x · 2^16` and the one on the rational are one. -/
theorem assembleOperand_isSome (v : AsmOperand) : (assembleOperand v).isSome = v.wellFormed := by
  cases v with
  | raw code => rfl
  | decimal x =>
    have hfv : x * 2 ^ Config.fv = x * 65536 := by norm_num [Config.fv]
    simp only [assembleOperand, AsmOperand.wellFormed, hfv]
    generalize x * 65536 = q
    by_cases hden : q.den = 1
    · have hnum : (q.num : ℚ) = q := Rat.coe_int_num_of_den_eq_one hden
      have hlo : (-2147483648 ≤ q) ↔ -2147483648 ≤ q.num := by rw [← hnum]; norm_cast
      have hhi : (q ≤ 2147483647) ↔ q.num ≤ 2147483647 := by rw [← hnum]; norm_cast
      rw [Bool.eq_iff_iff]
      simp [fitsWord, hden, hlo, hhi]
    · simp [hden]

/-- A decimal operand assembles to the one code of exactly its value: nothing is rounded (R12, R57). -/
theorem assembleOperand_decimal_iff {x : ℚ} {code : Word} :
    assembleOperand (.decimal x) = some code ↔ (code.toInt : ℚ) / 65536 = x := by
  have hfv : (2 : ℚ) ^ Config.fv = 65536 := by norm_num [Config.fv]
  simp only [assembleOperand, hfv, Option.ite_none_right_eq_some, Option.some.injEq, Bool.and_eq_true, beq_iff_eq]
  constructor
  · rintro ⟨⟨hden, hfits⟩, rfl⟩
    obtain ⟨hlo, hhi⟩ := (fitsWord_iff _).mp hfits
    rw [code32_toInt hlo hhi, Rat.coe_int_num_of_den_eq_one hden, mul_div_cancel_right₀ _ (by norm_num)]
  · rintro rfl
    rw [div_mul_cancel₀ _ (by norm_num), Rat.num_intCast, Rat.den_intCast]
    exact ⟨⟨rfl, fitsWord_toInt code⟩, code32_toInt_self code⟩

/-- A line assembles when its operand is legal (R57, R58). -/
theorem assemble_isSome (line : AsmLine) : (assemble line).isSome = line.wellFormed := by
  cases line with
  | setvel v => exact Option.isSome_map.trans (assembleOperand_isSome v)
  | setposd d => exact Option.isSome_map.trans (assembleOperand_isSome d)
  | setpos n => exact Option.isSome_map.trans (assembleSteps_isSome n)
  | ticks k =>
    rw [Bool.eq_iff_iff]
    simp [assemble, AsmLine.wellFormed]
  | _ => rfl

/-- Settles O5, clause by clause: a line with an operand assembles to one command, with the operand's own code. -/
theorem assemblerTakesLegalLines : Obligations.AssemblerTakesLegalLines := by
  unfold Obligations.AssemblerTakesLegalLines
  refine ⟨assemble_isSome, ?_, ?_, ?_, fun code => ⟨rfl, rfl⟩, ?_⟩
  · intro line i h
    simp only [List.mem_cons, Prod.mk.injEq, List.not_mem_nil, or_false] at h
    obtain ⟨rfl, rfl⟩ | ⟨rfl, rfl⟩ | ⟨rfl, rfl⟩ | ⟨rfl, rfl⟩ | ⟨rfl, rfl⟩ | ⟨rfl, rfl⟩ | ⟨rfl, rfl⟩ := h <;> rfl
  · intro x is h
    obtain ⟨code, hcode, rfl⟩ := Option.map_eq_some_iff.mp h
    exact ⟨code, rfl, assembleOperand_decimal_iff.mp hcode⟩
  · intro x is h
    obtain ⟨code, hcode, rfl⟩ := Option.map_eq_some_iff.mp h
    exact ⟨code, rfl, assembleOperand_decimal_iff.mp hcode⟩
  · intro n is h
    obtain ⟨code, hcode, rfl⟩ := Option.map_eq_some_iff.mp h
    exact ⟨code, rfl, assembleSteps_toInt hcode⟩

/-- A line with a decimal operand, of the command `f`: from the code of the operand's value to the word. -/
theorem map_encode_decimal (f : Word → Instr) (code : Word) {x : ℚ} (h : (code.toInt : ℚ) / 65536 = x) :
    ((assembleOperand (.decimal x)).map fun c => [f c]).map (List.map encode) = some [encode (f code)] := by
  rw [assembleOperand_decimal_iff.mpr h]
  rfl

/-- The encoder's half of R59: the decimals by their codes, the other lines by evaluation. -/
theorem sampleEncodings_assemble_encode :
    ∀ row ∈ sampleEncodings, (assemble row.1).map (List.map encode) = some [row.2] := by
  simp only [sampleEncodings, List.forall_mem_cons]
  refine ⟨map_encode_decimal .setvel 0x00280000#32 ?_, map_encode_decimal .setvel 0xFFD80000#32 ?_,
    map_encode_decimal .setvel 0x001F4000#32 ?_, map_encode_decimal .setvel 0x003E8000#32 ?_,
    map_encode_decimal .setvel 0x007D0000#32 ?_, map_encode_decimal .setvel 0x00C80000#32 ?_,
    map_encode_decimal .setvel 0x00000000#32 ?_, by decide, by decide, by decide, by decide,
    map_encode_decimal .setposd 0x00018000#32 ?_, by decide⟩ <;> norm_num [BitVec.toInt]

/-- Settles O1: the words are evaluated from the lines, and decode because they are encodings (O2). -/
theorem sampleWordsDecode : Obligations.SampleWordsDecode := by
  unfold Obligations.SampleWordsDecode
  intro row hrow
  obtain ⟨is, his, hmap⟩ := Option.map_eq_some_iff.mp (sampleEncodings_assemble_encode row hrow)
  obtain ⟨i, rfl, hword⟩ := List.map_eq_singleton_iff.mp hmap
  exact ⟨i, his, hword, (decodeEncodeAgree row.2 i).mpr hword.symm⟩

theorem assemble_ticks {k : ℕ} (hk : 1 ≤ k) : assemble (.ticks k) = some (List.replicate k .tick) := if_pos hk

theorem presented_tick : Instr.tick.presented = ⟨.ticksrc, 0x3000000000, none⟩ := by decide

/-- Settles O6: the operands are 0, whose code is 0, and a stretch of ticks is presented word by word. -/
theorem pseudoInstructionsExpand : Obligations.PseudoInstructionsExpand := by
  unfold Obligations.PseudoInstructionsExpand
  have hcode : assembleOperand (.decimal 0) = some 0 := assembleOperand_decimal_iff.mpr (by simp)
  have hvel : assemble (.setvel (.decimal 0)) = some [.setvel 0] := by rw [assemble, hcode]; rfl
  have hpos : assemble (.setpos 0) = some [.setpos 0] := by decide
  refine ⟨hvel.symm, rfl, hpos.symm, rfl, fun k hk => assemble_ticks hk, fun k hk => ?_⟩
  simp [program, assemble_ticks hk, presented_tick]

end Sys2Proof.Machine
end

section
/-! The effect of one tick under each strategy, one equation per outcome (R83, R84, R85, R87), and from them the whole
next state of a tick: O23, O24 and O25. -/

namespace Sys2Proof.Machine

theorem lowerPulse_of_low {s : State} (hp : s.pulse = false) : lowerPulse s = s := by simp [lowerPulse, hp]

/-- Firing with the step as an addition of words (R86). -/
theorem fire_eq_word (up : Bool) (s : State) :
    fire up s = { s with
      pulse := true
      outlog := s.outlog ++ [(.stepOut, true)]
      pos := if up then s.pos + 1 else s.pos - 1 } := by
  rw [← fire_pos_word]
  rfl

theorem wrapped_iff (up : Bool) (acc nacc : ℕ) :
    wrapped up acc nacc = true ↔ if up then (nacc : ℤ) < acc else (acc : ℤ) < nacc := by
  cases up <;> simp [wrapped]

theorem nextPhase_cast (up : Bool) (s : State) :
    (nextPhase up s : ℤ) = (if up then (s.acc : ℤ) + s.inc else (s.acc : ℤ) - s.inc) % 2 ^ s.cfg.n :=
  Int.toNat_of_nonneg (wrap_nonneg _ _)

theorem target_eq (s : State) : target s = if s.dcount < s.dlong then s.tps + 1 else s.tps := by
  simp [target, isLong, apply_ite (s.tps + ·)]

section
variable {s : State} {up : Bool} (hd : s.dir = (if up then .positive else .negative))
include hd

/-! ## Strategy A -/

theorem tickOnce_phase (ha : s.cfg.strategy = .a) : tickOnce s = advancePhase s.pulse up (lowerPulse s) := by
  rw [tickOnce_running hd, advance_phase _ _ (by simpa using ha)]

/-- A deferred tick only lowers the pulse (R87). -/
theorem tickOnce_phase_of_deferred (ha : s.cfg.strategy = .a) (hw : wrapped up s.acc (nextPhase up s) = true)
    (hp : s.pulse = true) : tickOnce s = lowerPulse s := by
  rw [tickOnce_phase hd ha, advancePhase]
  simp [hw, hp]

theorem tickOnce_phase_of_fires (ha : s.cfg.strategy = .a) (hw : wrapped up s.acc (nextPhase up s) = true)
    (hp : s.pulse = false) : tickOnce s = fire up { s with acc := nextPhase up s } := by
  rw [tickOnce_phase hd ha, advancePhase]
  simp [hw, hp, lowerPulse_of_low hp]

theorem tickOnce_phase_of_not_wrapped (ha : s.cfg.strategy = .a)
    (hw : wrapped up s.acc (nextPhase up s) = false) :
    tickOnce s = { lowerPulse s with acc := nextPhase up s } := by
  rw [tickOnce_phase hd ha, advancePhase]
  simp [hw]

/-! ## Strategy B -/

theorem tickOnce_count (hb : s.cfg.strategy = .b) : tickOnce s = advanceCount s.pulse up (lowerPulse s) := by
  rw [tickOnce_running hd, advance_count _ _ (by simpa using hb)]

theorem tickOnce_count_of_fires (hb : s.cfg.strategy = .b) (hgoal : target s ≤ nextCount s) (hp : s.pulse = false) :
    tickOnce s = fire up { s with tcnt := 0, dcount := (s.dcount + 1) % s.dtotal } := by
  rw [tickOnce_count hd hb, lowerPulse_of_low hp, advanceCount]
  simp [hgoal, hp]

theorem tickOnce_count_of_counts (hb : s.cfg.strategy = .b) (h : nextCount s < target s ∨ s.pulse = true) :
    tickOnce s = { lowerPulse s with tcnt := nextCount s } := by
  have hno : (decide (target s ≤ nextCount s) && !s.pulse) = false := by
    rcases h with h | h <;> simp [h]
  rw [tickOnce_count hd hb, advanceCount]
  simp [hno]

end

/-! ## The whole next state -/

/-- Settles O23: the lowering, then the hold of the counter. -/
theorem tickStoppedResult : Obligations.TickStoppedResult := by
  unfold Obligations.TickStoppedResult
  refine ⟨rfl, rfl, fun s hd => ?_⟩
  rw [exec_tick, tickOnce_stopped hd, holdStopped_eq, lowerPulse_eq]
  rfl

/-- Settles O24: the three outcomes of the accumulator, a wrap told by the accumulator's next value. -/
theorem tickPhaseResult : Obligations.TickPhaseResult := by
  unfold Obligations.TickPhaseResult
  intro s up ha hd
  dsimp only
  rw [← nextPhase_cast, ← wrapped_iff, Int.toNat_natCast, exec_tick]
  refine ⟨fun hw hp => ?_, fun hw hp => ?_, fun hw => ?_⟩
  · rw [tickOnce_phase_of_deferred hd ha hw hp, lowerPulse_eq]
    simp [hp]
  · rw [tickOnce_phase_of_fires hd ha hw hp, fire_eq_word]
  · rw [tickOnce_phase_of_not_wrapped hd ha (Bool.eq_false_of_not_eq_true hw), lowerPulse_eq]
    rfl

/-- Settles O25: the two outcomes of the counter. -/
theorem tickCountResult : Obligations.TickCountResult := by
  unfold Obligations.TickCountResult
  intro s up hb hd
  dsimp only
  rw [← target_eq, exec_tick]
  constructor
  · intro h hp
    rw [tickOnce_count_of_fires hd hb h hp, fire_eq_word]
  · intro h
    rw [tickOnce_count_of_counts hd hb h, lowerPulse_eq]
    rfl

end Sys2Proof.Machine
end

section
/-! The steps of a run and the rising edges it logs (R88, R89, R90, R95): O38, O39, O40 and O47. -/

namespace Sys2Proof.Machine

/-! ## One tick -/

/-- The lowering phase is no rising edge (R82). -/
@[simp] theorem risingEdges_lowering (p : Level) : risingEdges (if p then [(.stepOut, false)] else []) = 0 := by
  cases p <;> rfl

/-- A tick in any direction, the reserved one too: it logs no rising edge and moves nothing, or it fires from a low pulse
while running. -/
theorem tickOnce_still_or_fires (s : State) :
    (risingEdges (tickOnce s).outlog = risingEdges s.outlog ∧ (tickOnce s).pos = s.pos) ∨
    (s.pulse = false ∧ (s.dir = .positive ∨ s.dir = .negative) ∧ (tickOnce s).pulse = true ∧
      risingEdges (tickOnce s).outlog = risingEdges s.outlog + 1 ∧
      (tickOnce s).pos = BitVec.ofInt 32 (s.pos.toInt + stepSign s.dir)) := by
  by_cases hd : s.dir = .reserved
  · left
    simp [tickOnce_reserved hd]
  · obtain ⟨elog, epos, -⟩ | ⟨hp, hrun, elog, ep, epos⟩ := tickOnce_lowers_or_fires hd
    · left
      rw [elog]
      exact ⟨by simp, epos⟩
    · right
      rw [elog]
      refine ⟨hp, ?_, ep, by simp, epos⟩
      cases h : s.dir <;> simp_all

/-- A step up or down moves `POS`, wrap or not (R86). -/
theorem ofInt_step_ne {d : Dir} (hd : d = .positive ∨ d = .negative) (p : Word) :
    BitVec.ofInt 32 (p.toInt + stepSign d) ≠ p := by
  rw [BitVec.ofInt_add, BitVec.ofInt_toInt]
  rcases hd with rfl | rfl <;> simp [stepSign]

/-- Settles O38: a tick that fires moves `POS` and logs one edge, and any other does neither. -/
theorem oneStepPerTick : Obligations.OneStepPerTick := by
  unfold Obligations.OneStepPerTick
  intro s t h
  rw [exec_tick, Host.Outcome.next.injEq] at h
  subst h
  obtain ⟨hlog, hpos⟩ | ⟨-, hrun, -, hlog, hpos⟩ := tickOnce_still_or_fires s
  · simp [hlog, hpos]
  · have hne : (tickOnce s).pos ≠ s.pos := hpos ▸ ofInt_step_ne hrun s.pos
    exact ⟨.inr hpos, hlog.le, iff_of_true hlog hne, fun _ => hrun⟩

/-- Settles O39: only a tick that finds the pulse low fires, and it leaves the pulse high for the next one. -/
theorem pulseLastsOneTick : Obligations.PulseLastsOneTick := by
  unfold Obligations.PulseLastsOneTick
  simp only [exec_tick, exec_disable, Host.Outcome.next.injEq]
  refine ⟨?_, ?_, ?_, ?_⟩
  · rintro s _ hd hp rfl
    obtain ⟨hlog, hpos, hlow⟩ | ⟨hp', -⟩ := tickOnce_lowers_or_fires hd
    · exact ⟨hlow, by simp [hlog, hp], hpos⟩
    · simp [hp] at hp'
  · rintro s _ rfl hhigh hd
    obtain ⟨-, -, hlow⟩ | ⟨hp, -, hlog, -⟩ := tickOnce_lowers_or_fires hd
    · simp [hhigh] at hlow
    · exact ⟨hp, hlog⟩
  · rintro s _ _ rfl rfl
    obtain ⟨hfirst, -⟩ | ⟨-, -, hhigh, hfirst, -⟩ := tickOnce_still_or_fires s <;>
      obtain ⟨hsecond, -⟩ | ⟨hlow, -, -, hsecond, -⟩ := tickOnce_still_or_fires (tickOnce s)
    · omega
    · omega
    · omega
    · simp [hhigh] at hlow
  · rintro s _ hp rfl
    simp [driveEnOut, hp]

/-- A step in two's complement is a step, but at the end of the range it runs off (R86, R95). -/
theorem toInt_ofInt_step (d : Dir) (p : Word) :
    (BitVec.ofInt 32 (p.toInt + stepSign d)).toInt = p.toInt + stepSign d ∨
    (d = .positive ∧ p.toInt = 2147483647 ∧ (BitVec.ofInt 32 (p.toInt + stepSign d)).toInt = -2147483648) ∨
    (d = .negative ∧ p.toInt = -2147483648 ∧ (BitVec.ofInt 32 (p.toInt + stepSign d)).toInt = 2147483647) := by
  obtain ⟨hlo, hhi⟩ := (fitsWord_iff _).mp (fitsWord_toInt p)
  by_cases hfits : fitsWord (p.toInt + stepSign d) = true
  · obtain ⟨hlo', hhi'⟩ := (fitsWord_iff _).mp hfits
    exact .inl (code32_toInt hlo' hhi')
  · rw [fitsWord_iff] at hfits
    right
    cases d <;> simp only [stepSign] at hfits
    · omega
    · have htop : p.toInt = 2147483647 := by omega
      exact .inl ⟨rfl, htop, by rw [htop]; decide⟩
    · have hbottom : p.toInt = -2147483648 := by omega
      exact .inr ⟨rfl, hbottom, by rw [hbottom]; decide⟩
    · omega

/-- Settles O40: a tick moves nothing or makes the one step of its direction. -/
theorem positionIsMonotonic : Obligations.PositionIsMonotonic := by
  unfold Obligations.PositionIsMonotonic
  intro s t h
  rw [exec_tick, Host.Outcome.next.injEq] at h
  subst h
  obtain ⟨-, hpos⟩ | ⟨-, -, -, -, hpos⟩ := tickOnce_still_or_fires s
  · simp [hpos]
  · rw [hpos]
    have hstep := toInt_ofInt_step s.dir s.pos
    constructor <;> intro hd <;> rw [hd] at hstep ⊢ <;> simp only [stepSign, reduceCtorEq] at hstep ⊢ <;> omega

/-! ## A run of commands -/

/-- A command that does not overwrite the position moves it by the edges it logs, each of the sign of `DIR` (R90). -/
theorem exec_pos_of_not_overwrites {i : Instr} {s t : State} (hi : overwritesPosition i = false)
    (h : exec i s = .next t) :
    t.pos = BitVec.ofInt 32 (s.pos.toInt + stepSign s.dir * ((risingEdges t.outlog : ℤ) - risingEdges s.outlog)) := by
  by_cases htick : i = .tick
  · rw [htick, exec_tick, Host.Outcome.next.injEq] at h
    subst h
    obtain ⟨hlog, hpos⟩ | ⟨-, -, -, hlog, hpos⟩ := tickOnce_still_or_fires s <;> simp [hlog, hpos]
  · obtain ⟨-, -, -, -, hkeep, -⟩ := writersOfEachRegister i s t h
    obtain ⟨-, -, hpos⟩ := hkeep hi htick
    simp [hpos, risingEdges_of_ne_tick htick h]

/-- Settles O47, by induction over the run: the steps of its commands add up through the wraps. -/
theorem positionCountsEdges : Obligations.PositionCountsEdges := by
  unfold Obligations.PositionCountsEdges
  intro s t is hall h
  induction is generalizing s with
  | nil =>
    rw [execAll, Host.Outcome.next.injEq] at h
    simp [signedEdges, h]
  | cons i later ih =>
    obtain ⟨u, hu⟩ := exec_next i s
    simp only [execAll, hu] at h
    rw [ih u (fun j hj => hall j (by simp [hj])) h, exec_pos_of_not_overwrites (hall i (by simp)) hu, ofInt_toInt_add,
      add_assoc]
    simp only [signedEdges, hu]

end Sys2Proof.Machine
end

section
/-! A block that runs, and its state after `k` ticks: what the proofs about runs of ticks share. -/

namespace Sys2Proof.Machine

theorem execAll_ticks (k : ℕ) (s : State) : execAll (ticks k) s = .next (tickOnce^[k] s) := by
  induction k with
  | zero => rfl
  | succ k ih => rw [execAll_ticks_succ ih, Function.iterate_succ_apply']

/-- What a tick leaves alone, any number of ticks leaves alone. -/
theorem tickOnce_iterate_keeps {α : Type} {f : State → α} (keep : ∀ s, f (tickOnce s) = f s) (k : ℕ) (s : State) :
    f (tickOnce^[k] s) = f s := by
  induction k with
  | zero => rfl
  | succ k ih => rw [Function.iterate_succ_apply', keep, ih]

@[simp] theorem tickOnce_iterate_cfg (k : ℕ) (s : State) : (tickOnce^[k] s).cfg = s.cfg :=
  tickOnce_iterate_keeps tickOnce_cfg k s

@[simp] theorem tickOnce_iterate_dir (k : ℕ) (s : State) : (tickOnce^[k] s).dir = s.dir :=
  tickOnce_iterate_keeps tickOnce_dir k s

@[simp] theorem tickOnce_iterate_tps (k : ℕ) (s : State) : (tickOnce^[k] s).tps = s.tps :=
  tickOnce_iterate_keeps tickOnce_tps k s

@[simp] theorem tickOnce_iterate_dtotal (k : ℕ) (s : State) : (tickOnce^[k] s).dtotal = s.dtotal :=
  tickOnce_iterate_keeps tickOnce_dtotal k s

@[simp] theorem tickOnce_iterate_dlong (k : ℕ) (s : State) : (tickOnce^[k] s).dlong = s.dlong :=
  tickOnce_iterate_keeps tickOnce_dlong k s

/-- A constructed block that runs up or down under a strategy, every register legal. -/
def Runs (c : Strategy) (up : Bool) (s : State) : Prop :=
  BuiltInv s ∧ s.cfg.strategy = c ∧ s.dir = (if up then .positive else .negative)

theorem runs_of_inv {c : Strategy} {s : State} (hs : Inv s) (hbuilt : s.built = true) (hc : s.cfg.strategy = c)
    (hd : s.dir ≠ .stopped) : ∃ up, Runs c up s := by
  have hinv : BuiltInv s := hs.2 hbuilt
  have ⟨_, ⟨hres, _⟩, _⟩ := hinv
  cases h : s.dir
  · exact absurd h hd
  · exact ⟨true, hinv, hc, h⟩
  · exact ⟨false, hinv, hc, h⟩
  · exact absurd h hres

theorem Runs.after_tick {c : Strategy} {up : Bool} {s : State} (h : Runs c up s) : Runs c up (tickOnce s) := by
  obtain ⟨hinv, hc, hd⟩ := h
  exact ⟨builtInv_tickOnce hinv, by simpa using hc, by simpa using hd⟩

theorem Runs.after_ticks {c : Strategy} {up : Bool} {s : State} (h : Runs c up s) (k : ℕ) :
    Runs c up (tickOnce^[k] s) := by
  induction k with
  | zero => exact h
  | succ k ih =>
    rw [Function.iterate_succ_apply']
    exact ih.after_tick

theorem Runs.stepSign_eq {c : Strategy} {up : Bool} {s : State} (h : Runs c up s) : stepSign s.dir = upSign up := by
  obtain ⟨-, -, hd⟩ := h
  rw [hd]
  cases up <;> rfl

end Sys2Proof.Machine
end

section
/-! Runs under strategy A: a wrap leaves room for one more increment, so no deferral follows it (R92), O42; and the ticks
in closed form (R93), O43. -/

namespace Sys2Proof.Machine

/-! ## The room a wrap leaves -/

/-- At most half the accumulator's range, and so at least one increment, lies between the accumulator and the next
wrap. -/
def HasRoom (up : Bool) (s : State) : Prop :=
  if up then s.acc < 2 ^ (s.cfg.n - 1) else 2 ^ (s.cfg.n - 1) ≤ s.acc

section
variable {up : Bool} {s : State} (h : Runs .a up s)
include h

/-- R23 and R26 in the form the proofs use: the increment is at most half of `2^N`. -/
theorem Runs.phase_bounds :
    s.inc ≤ 2 ^ (s.cfg.n - 1) ∧ s.acc < 2 ^ s.cfg.n ∧ 2 ^ s.cfg.n = 2 * 2 ^ (s.cfg.n - 1) ∧ s.inc < 2 ^ s.cfg.n := by
  obtain ⟨⟨⟨hlegal, -⟩, -, hphase, -⟩, ha, -⟩ := h
  obtain ⟨-, -, -, -, -, -, -, -, -, hn, -⟩ := (legalConfig_iff _).mp hlegal
  obtain ⟨hinc, hacc, -⟩ := hphase ha
  have hpow : 2 ^ s.cfg.n = 2 * 2 ^ (s.cfg.n - 1) := by rw [← pow_succ']; congr 1; omega
  have : 0 < 2 ^ (s.cfg.n - 1) := by positivity
  exact ⟨hinc, hacc, hpow, by omega⟩

theorem Runs.not_wrapped_of_hasRoom (hroom : HasRoom up s) : wrapped up s.acc (nextPhase up s) = false := by
  obtain ⟨hinc, hacc, hpow, hlt⟩ := h.phase_bounds
  cases up
  · simp only [HasRoom, Bool.false_eq_true, if_false] at hroom
    rw [wrapped_down hacc hlt, decide_eq_false_iff_not]
    omega
  · simp only [HasRoom, if_true] at hroom
    rw [wrapped_up hacc hlt, decide_eq_false_iff_not]
    omega

/-- A tick leaves the pulse high only by a wrap from a low pulse (R84, R87). -/
theorem Runs.fires_of_pulse (hhigh : (tickOnce s).pulse = true) :
    tickOnce s = fire up { s with acc := nextPhase up s } ∧ wrapped up s.acc (nextPhase up s) = true := by
  obtain ⟨-, ha, hd⟩ := h
  cases hw : wrapped up s.acc (nextPhase up s)
  · simp [tickOnce_phase_of_not_wrapped hd ha hw] at hhigh
  · cases hp : s.pulse
    · exact ⟨tickOnce_phase_of_fires hd ha hw hp, rfl⟩
    · simp [tickOnce_phase_of_deferred hd ha hw hp] at hhigh

theorem Runs.hasRoom_of_pulse (hhigh : (tickOnce s).pulse = true) : HasRoom up (tickOnce s) := by
  obtain ⟨e, hw⟩ := h.fires_of_pulse hhigh
  obtain ⟨hinc, hacc, hpow, hlt⟩ := h.phase_bounds
  rw [e, HasRoom, fire_acc, fire_cfg]
  cases up
  · rw [wrapped_down hacc hlt, decide_eq_true_eq] at hw
    simp only [nextPhase_down hacc hlt.le, Bool.false_eq_true, if_false]
    split <;> omega
  · rw [wrapped_up hacc hlt, decide_eq_true_eq] at hw
    simp only [nextPhase_up hacc hlt.le, if_true]
    split <;> omega

end

/-- Commands that are no ticks and do not overwrite the position leave the configuration and the accumulator alone. -/
theorem execAll_keeps_phase {is : List Instr} {s t : State} (hs : Inv s)
    (hall : ∀ i ∈ is, i ≠ .tick ∧ overwritesPosition i = false) (h : execAll is s = .next t) :
    Inv t ∧ t.built = s.built ∧ t.cfg = s.cfg ∧ t.acc = s.acc := by
  refine execAll_keeps (P := fun u => Inv u ∧ u.built = s.built ∧ u.cfg = s.cfg ∧ u.acc = s.acc)
    (allowed := fun i => i ≠ .tick ∧ overwritesPosition i = false) ?_ is s t ⟨hs, rfl, rfl, rfl⟩ hall h
  rintro i u v ⟨htick, hover⟩ ⟨hu, hbuilt, hcfg, hacc⟩ huv
  have hconstruct : i ≠ .construct := by rintro rfl; cases hover
  obtain ⟨-, hbind, -, -, hkeep, -⟩ := writersOfEachRegister i u v huv
  obtain ⟨hcfg', -, -, hbuilt'⟩ := hbind hconstruct
  obtain ⟨hacc', -⟩ := hkeep hover htick
  exact ⟨exec_keeps_inv hu huv, hbuilt'.trans hbuilt, hcfg'.trans hcfg, hacc'.trans hacc⟩

/-- Settles O42: the room the step leaves is still there at the next tick, whatever increment is in force by then. -/
theorem noDeferralWithoutReversal : Obligations.NoDeferralWithoutReversal := by
  unfold Obligations.NoDeferralWithoutReversal
  intro s t u v between hs hbuilt ha hd ht hhigh hall hu hdir hv
  rw [exec_tick, Host.Outcome.next.injEq] at ht hv
  subst ht hv
  obtain ⟨up, hrun⟩ := runs_of_inv hs hbuilt ha hd
  obtain ⟨hinv, hbuilt', hcfg, hacc⟩ := execAll_keeps_phase (inv_tickOnce hs) hall hu
  rw [tickOnce_built] at hbuilt'
  rw [tickOnce_cfg] at hcfg
  have hrun' : Runs .a up u := ⟨hinv.2 (hbuilt'.trans hbuilt), by rw [hcfg, ha], by rw [hdir]; exact hrun.2.2⟩
  have hroom : HasRoom up u := by
    have := hrun.hasRoom_of_pulse hhigh
    rwa [HasRoom, tickOnce_cfg, ← hcfg, ← hacc] at this
  have hw := hrun'.not_wrapped_of_hasRoom hroom
  obtain ⟨-, hacc', -, hlt⟩ := hrun'.phase_bounds
  obtain ⟨-, ha', hd'⟩ := hrun'
  have hnext := nextPhase_eq up hacc' hlt
  rw [hw] at hnext
  rw [tickOnce_phase_of_not_wrapped hd' ha' hw, ← hdir, hd']
  cases up <;> simp [upSign] at hnext ⊢ <;> omega

/-! ## The closed form -/

/-- The running phase after `j` ticks that count. -/
def phaseAt (up : Bool) (s : State) (j : ℕ) : ℤ := s.acc + j * (upSign up * s.inc)

/-- `t` stands `j` counted ticks after `s`: its accumulator is the running phase modulo `2^N`, and its steps are the
multiples of `2^N` the phase crossed. -/
def PhaseAfter (up : Bool) (s : State) (j : ℕ) (t : State) : Prop :=
  (t.acc : ℤ) = phaseAt up s j % 2 ^ s.cfg.n ∧
  t.pos = BitVec.ofInt 32 (s.pos.toInt + phaseAt up s j / 2 ^ s.cfg.n) ∧
  (risingEdges t.outlog : ℤ) = risingEdges s.outlog + upSign up * (phaseAt up s j / 2 ^ s.cfg.n)

theorem phaseAt_one_emod (up : Bool) (s : State) : phaseAt up s 1 % 2 ^ s.cfg.n = nextPhase up s := by
  rw [nextPhase_cast]
  cases up <;> simp [phaseAt, upSign, sub_eq_add_neg]

theorem phaseAfter_zero (up : Bool) {s : State} (hacc : s.acc < 2 ^ s.cfg.n) : PhaseAfter up s 0 s := by
  have hlt : (s.acc : ℤ) < 2 ^ s.cfg.n := by exact_mod_cast hacc
  have hmod := Int.emod_eq_of_lt (Int.natCast_nonneg s.acc) hlt
  have hdiv := Int.ediv_eq_zero_of_lt (Int.natCast_nonneg s.acc) hlt
  simp [PhaseAfter, phaseAt, hmod, hdiv]

/-- Counted ticks add up: what the first has carried out of the accumulator stands in the position. -/
theorem PhaseAfter.trans {up : Bool} {s t u : State} {k : ℕ} (hcfg : t.cfg = s.cfg) (hinc : t.inc = s.inc)
    (h : PhaseAfter up s 1 t) (h' : PhaseAfter up t k u) : PhaseAfter up s (k + 1) u := by
  obtain ⟨hacc, hpos, hlog⟩ := h
  obtain ⟨hacc', hpos', hlog'⟩ := h'
  rw [hcfg] at hacc' hpos' hlog'
  have hphase : phaseAt up s (k + 1) = phaseAt up t k + 2 ^ s.cfg.n * (phaseAt up s 1 / 2 ^ s.cfg.n) := by
    have := Int.emod_add_mul_ediv (phaseAt up s 1) (2 ^ s.cfg.n)
    rw [← hacc] at this
    simp only [phaseAt, hinc] at this ⊢
    push_cast at this ⊢
    linarith
  have hdiv : phaseAt up s (k + 1) / 2 ^ s.cfg.n =
      phaseAt up s 1 / 2 ^ s.cfg.n + phaseAt up t k / 2 ^ s.cfg.n := by
    rw [hphase, Int.add_mul_ediv_left _ _ (by positivity), add_comm]
  refine ⟨?_, ?_, ?_⟩
  · rw [hacc', hphase, Int.add_mul_emod_self_left]
  · rw [hpos', hpos, ofInt_toInt_add, hdiv, add_assoc]
  · rw [hlog', hlog, hdiv]
    ring

section
variable {up : Bool} {s : State} (h : Runs .a up s)
include h

/-- The first tick is deferred exactly when it begins with the pulse high and wraps (R87). -/
theorem Runs.firstTickDefers_eq : firstTickDefers s = (s.pulse && wrapped up s.acc (nextPhase up s)) := by
  obtain ⟨-, hacc, -, hlt⟩ := h.phase_bounds
  obtain ⟨-, -, hd⟩ := h
  cases up
  · simp [firstTickDefers, hd, wrapped_down hacc hlt]
  · simp [firstTickDefers, hd, wrapped_up hacc hlt]

/-- A tick's phase crosses a multiple of `2^N` exactly when the accumulator wraps. -/
theorem Runs.phaseAt_one_ediv :
    phaseAt up s 1 / 2 ^ s.cfg.n = if wrapped up s.acc (nextPhase up s) then upSign up else 0 := by
  obtain ⟨-, hacc, -, hlt⟩ := h.phase_bounds
  have hpow : (0 : ℤ) < 2 ^ s.cfg.n := by positivity
  have hnext : (nextPhase up s : ℤ) < 2 ^ s.cfg.n := by exact_mod_cast nextPhase_lt up s
  have heq := nextPhase_eq up hacc hlt
  refine ((Int.ediv_emod_unique (r := nextPhase up s) hpow).mpr ⟨?_, Int.natCast_nonneg _, hnext⟩).1
  rw [heq, phaseAt]
  push_cast
  split <;> ring

/-- A tick that is not deferred counts, and the next one is not deferred either. -/
theorem Runs.phaseAfter_one (hdefer : firstTickDefers s = false) :
    PhaseAfter up s 1 (tickOnce s) ∧ firstTickDefers (tickOnce s) = false := by
  have hmod := phaseAt_one_emod up s
  have hdiv := h.phaseAt_one_ediv
  have hsq : upSign up * upSign up = 1 := by cases up <;> rfl
  rw [h.firstTickDefers_eq] at hdefer
  have ⟨_, ha, hd⟩ := h
  cases hw : wrapped up s.acc (nextPhase up s) <;>
    simp only [hw, if_true, Bool.false_eq_true, if_false] at hdefer hdiv
  · have e := tickOnce_phase_of_not_wrapped hd ha hw
    refine ⟨?_, ?_⟩
    · rw [PhaseAfter, hmod, hdiv, e]
      simp
    · simp [firstTickDefers, e]
  · have hp : s.pulse = false := by simpa using hdefer
    have e := tickOnce_phase_of_fires hd ha hw hp
    have hhigh : (tickOnce s).pulse = true := by rw [e]; rfl
    refine ⟨?_, ?_⟩
    · rw [PhaseAfter, hmod, hdiv, e, fire_pos]
      exact ⟨rfl, rfl, by simp [hsq]⟩
    · rw [h.after_tick.firstTickDefers_eq, h.after_tick.not_wrapped_of_hasRoom (h.hasRoom_of_pulse hhigh), Bool.and_false]

end

theorem Runs.phaseAfter_iterate {up : Bool} {s : State} (h : Runs .a up s) (hdefer : firstTickDefers s = false)
    (k : ℕ) : PhaseAfter up s k (tickOnce^[k] s) := by
  induction k generalizing s with
  | zero => exact phaseAfter_zero up h.phase_bounds.2.1
  | succ k ih =>
    obtain ⟨hone, hdefer'⟩ := h.phaseAfter_one hdefer
    exact hone.trans (tickOnce_cfg s) (tickOnce_inc s) (ih h.after_tick hdefer')

/-- A deferred first tick only lowers the pulse, so it does not count. -/
theorem Runs.phaseAfter_iterate_of_deferred {up : Bool} {s : State} (h : Runs .a up s)
    (hdefer : firstTickDefers s = true) (k : ℕ) : PhaseAfter up s k (tickOnce^[k + 1] s) := by
  rw [h.firstTickDefers_eq, Bool.and_eq_true] at hdefer
  obtain ⟨hp, hw⟩ := hdefer
  have e := tickOnce_phase_of_deferred h.2.2 h.2.1 hw hp
  have hafter := h.after_tick.phaseAfter_iterate (by simp [firstTickDefers, e]) k
  rw [Function.iterate_succ_apply]
  simpa [PhaseAfter, phaseAt, e] using hafter

/-- A phase that only grows crosses multiples upward, one that only falls crosses them downward. -/
theorem Runs.abs_phaseAt_ediv {up : Bool} {s : State} (h : Runs .a up s) (j : ℕ) :
    |phaseAt up s j / 2 ^ s.cfg.n| = upSign up * (phaseAt up s j / 2 ^ s.cfg.n) := by
  obtain ⟨-, hacc, -, -⟩ := h.phase_bounds
  have hlt : (s.acc : ℤ) < 2 ^ s.cfg.n := by exact_mod_cast hacc
  have hmoved : (0 : ℤ) ≤ j * s.inc := by positivity
  cases up
  · have hbelow : phaseAt false s j < 2 ^ s.cfg.n := by
      simp only [phaseAt, upSign, Bool.false_eq_true, if_false]
      linarith
    have hdiv : phaseAt false s j / 2 ^ s.cfg.n < 1 := Int.ediv_lt_of_lt_mul (by positivity) (by simpa using hbelow)
    rw [abs_of_nonpos (by omega)]
    simp [upSign]
  · have hnonneg : 0 ≤ phaseAt true s j := by
      simp only [phaseAt, upSign, if_true]
      positivity
    rw [abs_of_nonneg (Int.ediv_nonneg hnonneg (by positivity))]
    simp [upSign]

/-- Settles O43: every tick counts, but the first where it is deferred. -/
theorem phaseTicksClosedForm : Obligations.PhaseTicksClosedForm := by
  unfold Obligations.PhaseTicksClosedForm
  intro s k hs hbuilt ha hd
  obtain ⟨up, hrun⟩ := runs_of_inv hs hbuilt ha hd
  have hafter : PhaseAfter up s (if firstTickDefers s then k - 1 else k) (tickOnce^[k] s) := by
    cases hdefer : firstTickDefers s
    · exact hrun.phaseAfter_iterate hdefer k
    · cases k with
      | zero => exact phaseAfter_zero up hrun.phase_bounds.2.1
      | succ k => exact hrun.phaseAfter_iterate_of_deferred hdefer k
  obtain ⟨hacc, hpos, hlog⟩ := hafter
  rw [← hrun.abs_phaseAt_ediv] at hlog
  rw [hrun.stepSign_eq]
  exact ⟨_, execAll_ticks k s, hacc, hpos, hlog⟩

end Sys2Proof.Machine
end

section
/-! Runs under strategy B: the length of an interval (R94), O44, and of a dither cycle (R75), O45. -/

namespace Sys2Proof.Machine

/-! ## One interval -/

/-- `t` stands `k` ticks into the interval that began at `s`: it has counted them and fired nothing. -/
def CountedTo (s : State) (k : ℕ) (t : State) : Prop :=
  t.tcnt = k ∧ t.pos = s.pos ∧ t.dcount = s.dcount ∧ risingEdges t.outlog = risingEdges s.outlog ∧
  (0 < k → t.pulse = false)

section
variable {up : Bool} {s : State} (h : Runs .b up s)
include h

/-- R24 and R25 in the form the proofs use. -/
theorem Runs.interval_bounds : 4 ≤ s.tps ∧ s.tps ≤ 2 ^ s.cfg.wt - 2 ∧ s.dlong ≤ s.dtotal := by
  obtain ⟨⟨⟨hlegal, -⟩, -, -, hint, -⟩, hb, hd⟩ := h
  obtain ⟨-, -, -, hkB, -⟩ := (legalConfig_iff _).mp hlegal
  obtain ⟨-, hrun, -, -, hlong, -⟩ := hint hb
  obtain ⟨hlo, hhi⟩ := hrun (by rw [hd]; cases up <;> simp)
  exact ⟨hkB.trans hlo, hhi, hlong⟩

theorem Runs.four_le_target : 4 ≤ target s := by
  obtain ⟨hlo, -, -⟩ := h.interval_bounds
  unfold target
  omega

/-- The counter of a running block never saturates before the target (R85). -/
theorem Runs.nextCount_eq (htcnt : s.tcnt < target s) : nextCount s = s.tcnt + 1 := by
  obtain ⟨hlo, hhi, -⟩ := h.interval_bounds
  rw [target_eq] at htcnt
  unfold nextCount
  split at htcnt <;> omega

theorem Runs.tickOnce_counts (htcnt : s.tcnt + 1 < target s) :
    tickOnce s = { lowerPulse s with tcnt := s.tcnt + 1 } := by
  have hnext := h.nextCount_eq (by omega)
  rw [tickOnce_count_of_counts h.2.2 h.2.1 (.inl (by omega)), hnext]

theorem Runs.tickOnce_fires (htcnt : s.tcnt + 1 = target s) (hp : s.pulse = false) :
    tickOnce s = fire up { s with tcnt := 0, dcount := (s.dcount + 1) % s.dtotal } :=
  tickOnce_count_of_fires h.2.2 h.2.1 (by rw [h.nextCount_eq (by omega), htcnt]) hp

theorem Runs.countedTo_iterate (hzero : s.tcnt = 0) {k : ℕ} (hk : k < target s) :
    CountedTo s k (tickOnce^[k] s) := by
  induction k with
  | zero => exact ⟨hzero, rfl, rfl, rfl, fun hpos => absurd hpos (lt_irrefl 0)⟩
  | succ k ih =>
    obtain ⟨htcnt, hpos, hdcount, hlog, -⟩ := ih (by omega)
    have hgoal : target (tickOnce^[k] s) = target s := by simp [target_eq, hdcount]
    have e := (h.after_ticks k).tickOnce_counts (by rw [htcnt, hgoal]; exact hk)
    rw [Function.iterate_succ_apply', e]
    simp [CountedTo, htcnt, hpos, hdcount, hlog]

/-- The tick that completes the interval fires (R85). -/
theorem Runs.interval_fires (hzero : s.tcnt = 0) :
    (tickOnce^[target s] s).tcnt = 0 ∧ (tickOnce^[target s] s).pulse = true ∧
    (tickOnce^[target s] s).dcount = (s.dcount + 1) % s.dtotal ∧
    (tickOnce^[target s] s).pos = BitVec.ofInt 32 (s.pos.toInt + upSign up) ∧
    risingEdges (tickOnce^[target s] s).outlog = risingEdges s.outlog + 1 := by
  have hlong := h.four_le_target
  obtain ⟨k, hk⟩ : ∃ k, target s = k + 1 := ⟨target s - 1, by omega⟩
  obtain ⟨htcnt, hpos, hdcount, hlog, hlow⟩ := h.countedTo_iterate hzero (k := k) (by omega)
  have hgoal : target (tickOnce^[k] s) = target s := by simp [target_eq, hdcount]
  have e := (h.after_ticks k).tickOnce_fires (by rw [htcnt, hgoal, hk]) (hlow (by omega))
  rw [hk, Function.iterate_succ_apply', e]
  refine ⟨rfl, rfl, by simp [hdcount], ?_, by simp [hlog]⟩
  rw [fire_pos, ← hpos]
  rfl

end

/-- Settles O44: the ticks before the last of the interval count, and the last fires. -/
theorem intervalLength : Obligations.IntervalLength := by
  unfold Obligations.IntervalLength
  intro s hs hbuilt hb hd hzero
  obtain ⟨up, hrun⟩ := runs_of_inv hs hbuilt hb hd
  dsimp only
  rw [← target_eq, hrun.stepSign_eq]
  refine ⟨fun k hk => ?_, _, execAll_ticks _ s, hrun.interval_fires hzero⟩
  obtain ⟨htcnt, hpos, hdcount, hlog, -⟩ := hrun.countedTo_iterate hzero hk
  exact ⟨_, execAll_ticks k s, htcnt, hpos, hdcount, hlog⟩

/-! ## A dither cycle -/

/-- The ticks of the first `m` intervals of a dither cycle: the long intervals come first (R27). -/
def intervalTicks (s : State) (m : ℕ) : ℕ := m * s.tps + min m s.dlong

/-- `t` stands at the start of the interval `m` of the dither cycle that began at `s`, `m` steps on. -/
def IntervalsAfter (up : Bool) (s : State) (m : ℕ) (t : State) : Prop :=
  t.tcnt = 0 ∧ t.dcount = m % s.dtotal ∧ t.pos = BitVec.ofInt 32 (s.pos.toInt + upSign up * m) ∧
  risingEdges t.outlog = risingEdges s.outlog + m

theorem Runs.intervalsAfter_iterate {up : Bool} {s : State} (h : Runs .b up s) (htcnt : s.tcnt = 0)
    (hdcount : s.dcount = 0) {m : ℕ} (hm : m ≤ s.dtotal) :
    IntervalsAfter up s m (tickOnce^[intervalTicks s m] s) := by
  induction m with
  | zero => simp [IntervalsAfter, intervalTicks, htcnt, hdcount]
  | succ m ih =>
    obtain ⟨htcnt', hdcount', hpos, hlog⟩ := ih (by omega)
    obtain ⟨hzero, -, hnext, hstep, hedge⟩ := (h.after_ticks (intervalTicks s m)).interval_fires htcnt'
    have hticks : intervalTicks s (m + 1) = target (tickOnce^[intervalTicks s m] s) + intervalTicks s m := by
      rw [target_eq, hdcount', Nat.mod_eq_of_lt (by omega)]
      simp only [intervalTicks, tickOnce_iterate_dlong, tickOnce_iterate_tps, add_one_mul]
      split <;> omega
    rw [hticks, Function.iterate_add_apply]
    refine ⟨hzero, ?_, ?_, ?_⟩
    · rw [hnext, hdcount', tickOnce_iterate_dtotal, Nat.mod_add_mod]
    · rw [hstep, hpos, ofInt_toInt_add, add_assoc]
      push_cast
      rw [mul_add, mul_one]
    · rw [hedge, hlog, add_assoc]

/-- Settles O45: the cycle is its `DTOTAL` intervals, `DLONG` of them one tick longer. -/
theorem ditherCycleLength : Obligations.DitherCycleLength := by
  unfold Obligations.DitherCycleLength
  intro s hs hbuilt hb hd htcnt hdcount
  obtain ⟨up, hrun⟩ := runs_of_inv hs hbuilt hb hd
  obtain ⟨-, -, hlong⟩ := hrun.interval_bounds
  have hcycle : intervalTicks s s.dtotal = s.dtotal * s.tps + s.dlong := by rw [intervalTicks, min_eq_right hlong]
  obtain ⟨hzero, hstart, hpos, hlog⟩ := hrun.intervalsAfter_iterate htcnt hdcount le_rfl
  rw [Nat.mod_self] at hstart
  rw [hrun.stepSign_eq, ← hcycle]
  exact ⟨_, execAll_ticks _ s, hpos, hlog, hzero, hstart, tickOnce_iterate_tps _ s, tickOnce_iterate_dtotal _ s,
    tickOnce_iterate_dlong _ s, tickOnce_iterate_dir _ s⟩

end Sys2Proof.Machine
end

section
/-! The position store (R99 to R105): the two conversions between steps and distances, the whole next state of `GETVEL`
and of each command of the store, O14 to O17, and what a write and a read say together, O52 and O53. -/

namespace Sys2Proof.Machine

/-! ## The conversions -/

/-- Half away from zero, with the sign taken apart at 0 instead of below it (R10). -/
theorem roundHA_eq (q : ℚ) : roundHA q = if 0 ≤ q then ⌊q + 1 / 2⌋ else -⌊-q + 1 / 2⌋ := by
  simp only [roundHA, ← not_lt, ite_not]

theorem sat_32_eq (x : ℤ) : sat 32 x = min (max x (-2147483648)) 2147483647 := by simp [sat]

theorem val_eq (opd : Word) : val opd = opd.toInt / 65536 := by norm_num [val, fxValue, sint, Config.fv]

theorem distanceToSteps_eq (spd : ℚ) (opd : Word) : distanceToSteps spd opd = sat 32 (roundHA (val opd * spd)) := rfl

theorem stepsToDistance_eq (spd : ℚ) (p : ℤ) : stepsToDistance spd p = sat 32 (roundHA (p * 65536 / spd)) := by
  norm_num [stepsToDistance, Config.wv, Config.fv]

theorem val_code32 {x : ℤ} (hlo : -2147483648 ≤ x) (hhi : x ≤ 2147483647) : val (code32 x) = x / 65536 := by
  rw [val_eq, code32_toInt hlo hhi]

/-! ## The whole next states -/

/-- Settles O14: each is one read into `RESULT`. -/
theorem getvelGetposResult : Obligations.GetvelGetposResult := by
  unfold Obligations.GetvelGetposResult
  exact ⟨rfl, rfl, rfl, rfl, fun s => ⟨exec_getvel s, exec_getpos s⟩⟩

/-- Settles O15: the conversion of `POS`, with its rounding and saturation written out. -/
theorem getposdResult : Obligations.GetposdResult := by
  unfold Obligations.GetposdResult
  refine ⟨rfl, rfl, fun s => ?_⟩
  rw [exec_getposd, stepsToDistance_eq, sat_32_eq, roundHA_eq]
  rfl

/-- Settles O16: the code of an operand's integer is the operand, and the rest is the overwrite of R99. -/
theorem setposResult : Obligations.SetposResult := by
  unfold Obligations.SetposResult
  refine ⟨rfl, fun s opd => ⟨rfl, ?_⟩⟩
  rw [exec_setpos, overwritePosition_eq, sint, code32_toInt_self]

/-- Settles O17: the conversion of the operand, with its rounding and saturation written out, and the overwrite of R99. -/
theorem setposdResult : Obligations.SetposdResult := by
  unfold Obligations.SetposdResult
  refine ⟨rfl, fun s opd => ⟨rfl, ?_⟩⟩
  rw [exec_setposd, overwritePosition_eq, distanceToSteps_eq, sat_32_eq, roundHA_eq, val_eq]
  rfl

/-! ## A write, then a read -/

/-- A tick that logs a rising edge moves `POS` by one, as a word (R86). -/
theorem tickOnce_pos_of_edge {s : State} (h : risingEdges (tickOnce s).outlog ≠ risingEdges s.outlog) :
    (tickOnce s).pos = s.pos + 1 ∨ (tickOnce s).pos = s.pos - 1 := by
  obtain ⟨hstill, -⟩ | ⟨-, hrun, -, -, hpos⟩ := tickOnce_still_or_fires s
  · exact absurd hstill h
  · rw [hpos, BitVec.ofInt_add, BitVec.ofInt_toInt]
    rcases hrun with hd | hd
    · left; simp [hd, stepSign]
    · right; simp [hd, stepSign, BitVec.sub_eq_add_neg, BitVec.ofInt_neg]

theorem overwritePosition_sint_pos (n : Word) (s : State) : (overwritePosition (sint n) s).pos = n := by
  rw [overwritePosition_eq, sint, code32_toInt_self]

/-- Settles O52: the read answers the word that was written, moved by the one step of a tick that fires. -/
theorem setposThenGetpos : Obligations.SetposThenGetpos := by
  unfold Obligations.SetposThenGetpos
  simp only [execAll, exec_setpos, exec_getpos, exec_tick, Host.Outcome.next.injEq]
  constructor
  · intro s n
    exact ⟨_, rfl, overwritePosition_sint_pos n s, overwritePosition_outlog _ s⟩
  · rintro s _ _ n rfl hedge rfl
    have hmove := tickOnce_pos_of_edge (s := overwritePosition (sint n) s) (by simpa using hedge)
    rwa [overwritePosition_sint_pos] at hmove

/-- `SETPOSD` then `GETPOSD`: `RESULT` codes the distance of the rounded steps, each conversion saturating (R101, R103). -/
theorem setposd_getposd_result {s t : State} {opd : Word} (h : execAll [.setposd opd, .getposd] s = .next t) :
    t.result = code32 (stepsToDistance s.cfg.spd (code32 (distanceToSteps s.cfg.spd opd)).toInt) := by
  simp only [execAll, exec_setposd, exec_getposd, Host.Outcome.next.injEq] at h
  subst h
  simp [overwritePosition_eq]

/-- A number of steps nearest to the distance `d` stands for a distance within half a step of `d`. -/
theorem roundHA_steps_error (d : ℚ) {spd : ℚ} (hspd : 0 < spd) : |roundHA (d * spd) / spd - d| ≤ 1 / (2 * spd) := by
  have hsplit : roundHA (d * spd) / spd - d = (roundHA (d * spd) - d * spd) / spd := by field_simp
  rw [hsplit, abs_div, abs_of_pos hspd, ← div_div]
  gcongr
  exact roundHA_error _

/-- An `FX` code nearest to a distance stands for one within half a unit of its last place, `2^−17`. -/
theorem roundHA_code_error (x : ℚ) : |roundHA (x * 65536) / 65536 - x| ≤ 1 / 2 ^ 17 := by
  have hhalf : (1 : ℚ) / 2 ^ 17 = 1 / (2 * 65536) := by norm_num
  exact hhalf ▸ roundHA_steps_error x (by norm_num)

theorem halfStep_add_halfCode_le {spd : ℚ} (hspd : 0 < spd) (h : spd ≤ 2 ^ 16) :
    1 / (2 * spd) + 1 / 2 ^ 17 ≤ 1 / spd := by
  have hcode : (1 : ℚ) / 2 ^ 17 ≤ 1 / (2 * spd) := one_div_le_one_div_of_le (by positivity) (by linarith)
  have hhalves : 1 / (2 * spd) + 1 / (2 * spd) = 1 / spd := by field_simp; norm_num
  linarith

/-- Settles O53: where nothing saturates, the errors of the two roundings add up. -/
theorem distanceRoundTrip : Obligations.DistanceRoundTrip := by
  unfold Obligations.DistanceRoundTrip
  intro s t opd hspd hrun n code hnhi hnlo hchi hclo
  refine ⟨?_, halfStep_add_halfCode_le hspd⟩
  have hresult : val t.result = code / 65536 := by
    rw [setposd_getposd_result hrun, distanceToSteps_eq, sat_of_fits hnlo hnhi, code32_toInt hnlo hnhi,
      stepsToDistance_eq, sat_of_fits hclo hchi, val_code32 hclo hchi]
  have hcode : |(code : ℚ) / 65536 - n / s.cfg.spd| ≤ 1 / 2 ^ 17 := by
    simpa only [code, mul_div_right_comm] using roundHA_code_error (n / s.cfg.spd)
  calc |val t.result - val opd|
      ≤ |val t.result - n / s.cfg.spd| + |n / s.cfg.spd - val opd| := abs_sub_le _ _ _
    _ ≤ 1 / 2 ^ 17 + 1 / (2 * s.cfg.spd) := add_le_add (hresult ▸ hcode) (roundHA_steps_error _ hspd)
    _ = 1 / (2 * s.cfg.spd) + 1 / 2 ^ 17 := add_comm _ _

end Sys2Proof.Machine
end

section
/-! `ENABLE` and `DISABLE` (43_control.md): the whole next state of each, O12 and O13; the motor that stays Stopped
after `ENABLE` until a `SETVEL` reaches the threshold, O50; and the block that stays silent from `DISABLE` to the next
`ENABLE`, O49. -/

namespace Sys2Proof.Machine

/-! ## The whole next states -/

/-- Settles O12: the enable output, then the motor forced Stopped. -/
theorem enableResult : Obligations.EnableResult := by
  unfold Obligations.EnableResult
  refine ⟨rfl, rfl, fun s => ?_⟩
  rw [exec_enable, stopMotor_eq]
  rfl

/-- Settles O13: the lowering, the enable output, then the motor forced Stopped. -/
theorem disableResult : Obligations.DisableResult := by
  unfold Obligations.DisableResult
  refine ⟨rfl, rfl, fun s => ?_⟩
  rw [exec_disable, stopMotor_eq, lowerPulse_eq]
  rfl

/-! ## A `SETVEL` that stops -/

/-- The clamped code of the obligations is the converter's (R62). -/
theorem clampedCode_eq (s : State) (opd : Word) : clampedCode s opd = clampVelocity s.maxCode opd := rfl

theorem clampedMagnitude_eq (s : State) (opd : Word) :
    clampedMagnitude s opd = magnitude (clampVelocity s.maxCode opd) := by
  norm_num [clampedMagnitude, clampedCode_eq, magnitude, fxValue, Config.fv]

/-- The converter answers Stopped while disabled and below the threshold (R63). -/
theorem convert_of_stops {cfg : Config} {enabled : Bool} {c : ℤ}
    (h : enabled = false ∨ magnitude c < cfg.vStop) : convert cfg enabled c = (.stopped, sentinel cfg) := by
  rw [convert, if_pos ((stops_iff _ _ _).mpr h)]

/-- A `SETVEL` whose result is Stopped writes `VEL` and forces Stopped: reduced modulo the sentinel's `DTOTAL = 1`,
`DCOUNT` is 0 (R65, R77, R79). -/
theorem setVelocity_of_stops {opd : Word} {s : State}
    (h : s.enabled = false ∨ magnitude (clampVelocity s.maxCode opd) < s.cfg.vStop) :
    setVelocity opd s = stopMotor { s with vel := code32 (clampVelocity s.maxCode opd) } := by
  simp only [setVelocity, convert_of_stops h]
  cases hc : s.cfg.strategy <;>
    simp [commitVelocity, stopMotor, sentinel, writeTiming, writeDcount, hc, Nat.mod_one]

/-! ## Stopped below the threshold -/

/-- No command fires a step from Stopped. -/
theorem exec_risingEdges_of_stopped {i : Instr} {s t : State} (hd : s.dir = .stopped) (h : exec i s = .next t) :
    risingEdges t.outlog = risingEdges s.outlog := by
  by_cases hi : i = .tick
  · subst hi
    rw [exec_tick, tickOnce_stopped hd, Host.Outcome.next.injEq] at h
    rw [← h, holdStopped_outlog, lowerPulse_risingEdges]
  · exact risingEdges_of_ne_tick hi h

/-- Only a `SETVEL` that reaches the threshold leaves Stopped (R63, R110). -/
theorem exec_keeps_stopped {i : Instr} {s t : State} (hd : s.dir = .stopped)
    (hlow : ∀ opd, i = .setvel opd → clampedMagnitude s opd < s.cfg.vStop) (h : exec i s = .next t) :
    t.dir = .stopped := by
  cases i
  case construct =>
    obtain ⟨-, rfl⟩ | ⟨-, rfl⟩ := construct_cases h
    · exact constructed_dir _ s
    · exact hd
  case enable => exact enable_or_disable_dir (.inl h)
  case disable => exact enable_or_disable_dir (.inr h)
  case setvel opd =>
    obtain ⟨-, rfl⟩ | ⟨-, rfl⟩ := setvel_cases h
    · exact hd
    · have hbelow := hlow opd rfl
      rw [clampedMagnitude_eq] at hbelow
      rw [setVelocity_of_stops (.inr hbelow), stopMotor_dir]
  case tick | setpos | setposd | getvel | getpos | getposd =>
    simp only [exec_tick, exec_setpos, exec_setposd, exec_getvel, exec_getpos, exec_getposd,
      Host.Outcome.next.injEq] at h
    subst h
    simpa using hd

/-- A run below the threshold that starts Stopped ends Stopped and fires no step. -/
theorem execAll_stopped_of_staysBelowThreshold {is : List Instr} {s t : State} (hd : s.dir = .stopped)
    (hlow : staysBelowThreshold is s) (h : execAll is s = .next t) :
    t.dir = .stopped ∧ risingEdges t.outlog = risingEdges s.outlog := by
  induction is generalizing s with
  | nil =>
    simp only [execAll, Host.Outcome.next.injEq] at h
    subst h
    exact ⟨hd, rfl⟩
  | cons i rest ih =>
    obtain ⟨hfirst, hrest⟩ := hlow
    obtain ⟨u, hu⟩ := exec_next i s
    simp only [execAll, hu] at h
    rw [← exec_risingEdges_of_stopped hd hu]
    exact ih (exec_keeps_stopped hd hfirst hu) (hrest u hu) h

/-- Settles O50: `ENABLE` fires nothing and leaves the motor Stopped, and the run below the threshold keeps both. -/
theorem enableDoesNotReplay : Obligations.EnableDoesNotReplay := by
  unfold Obligations.EnableDoesNotReplay
  intro s t u is hen hlow hrun
  rw [← risingEdges_of_ne_tick (by simp) hen]
  exact execAll_stopped_of_staysBelowThreshold (enable_or_disable_dir (.inl hen)) hlow hrun

/-! ## Silence until the next `ENABLE` -/

/-- The block as `DISABLE` leaves it: disabled, the pulse low, Stopped with the sentinel, and `DCOUNT = 0` under
strategy B (R108). -/
def Parked (s : State) : Prop :=
  s.enabled = false ∧ s.pulse = false ∧ s.dir = .stopped ∧
  (s.cfg.strategy = .a → s.inc = 0) ∧
  (s.cfg.strategy = .b → s.tps = 2 ^ s.cfg.wt - 1 ∧ s.dtotal = 1 ∧ s.dlong = 0 ∧ s.dcount = 0)

theorem parked_stopMotor {s : State} (hoff : s.enabled = false) (hp : s.pulse = false) : Parked (stopMotor s) := by
  rw [stopMotor_eq]
  exact ⟨hoff, hp, rfl, fun ha => if_pos ha, fun hb => ⟨if_pos hb, if_pos hb, if_pos hb, if_pos hb⟩⟩

theorem parked_constructed (c : Config) (s : State) : Parked (constructed c s) := by
  rw [constructed_eq]
  exact ⟨rfl, rfl, rfl, fun ha => if_pos ha, fun hb => ⟨if_pos hb, if_pos hb, if_pos hb, if_pos hb⟩⟩

theorem parked_of_disable {s t : State} (h : exec .disable s = .next t) : Parked t := by
  rw [exec_disable, Host.Outcome.next.injEq] at h
  subst h
  exact parked_stopMotor (by simp) (by simp)

theorem parked_overwritePosition (n : ℤ) {s : State} (h : Parked s) : Parked (overwritePosition n s) := by
  obtain ⟨hoff, hp, hd, hinc, hint⟩ := h
  rw [overwritePosition_eq]
  refine ⟨hoff, hp, hd, hinc, fun hb => ?_⟩
  obtain ⟨htps, htotal, hlong, -⟩ := hint hb
  exact ⟨htps, htotal, hlong, if_pos hb⟩

/-- Forcing Stopped changes nothing in a parked block. -/
theorem Parked.stopMotor_eq_self {s : State} (h : Parked s) : stopMotor s = s := by
  obtain ⟨-, -, hd, hinc, hint⟩ := h
  simp only [imp_and] at hint
  obtain ⟨htps, htotal, hlong, hcount⟩ := hint
  rw [stopMotor_eq]
  cases s
  simp only [State.mk.injEq, ite_eq_right_iff, true_and, and_true]
  exact ⟨hd.symm, fun ha => (hinc ha).symm, fun hb => (htps hb).symm, fun hb => (htotal hb).symm,
    fun hb => (hlong hb).symm, fun hb => (hcount hb).symm⟩

/-- A tick of a parked block is the hold of the counter (R83). -/
theorem Parked.tickOnce_eq {s : State} (h : Parked s) : tickOnce s = holdStopped s := by
  obtain ⟨-, hp, hd, -⟩ := h
  rw [tickOnce_stopped hd, lowerPulse_of_low hp]

/-- `SETVEL` in a parked block writes `VEL` alone. -/
theorem Parked.exec_setvel_eq {s : State} (h : Parked s) (opd : Word) :
    exec (.setvel opd) s = .next { s with vel := code32 (clampVelocity s.maxCode opd) } := by
  have ⟨hoff, _, hd, _⟩ := h
  have hvel : Parked { s with vel := code32 (clampVelocity s.maxCode opd) } := h
  rw [exec_setvel, if_neg (by simp [hd]), setVelocity_of_stops (.inl hoff), hvel.stopMotor_eq_self]

/-- Only `ENABLE` ends the parking. -/
theorem exec_keeps_parked {i : Instr} {s t : State} (hi : i ≠ .enable) (hs : Parked s) (h : exec i s = .next t) :
    Parked t := by
  cases i
  case enable => exact absurd rfl hi
  case construct =>
    obtain ⟨-, rfl⟩ | ⟨-, rfl⟩ := construct_cases h
    · exact parked_constructed _ s
    · exact hs
  case disable => exact parked_of_disable h
  case setvel opd =>
    rw [hs.exec_setvel_eq, Host.Outcome.next.injEq] at h
    subst h
    exact hs
  case tick =>
    rw [exec_tick, hs.tickOnce_eq, holdStopped_eq, Host.Outcome.next.injEq] at h
    subst h
    exact hs
  case setpos | setposd =>
    simp only [exec_setpos, exec_setposd, Host.Outcome.next.injEq] at h
    subst h
    exact parked_overwritePosition _ hs
  case getvel | getpos | getposd =>
    simp only [exec_getvel, exec_getpos, exec_getposd, Host.Outcome.next.injEq] at h
    subst h
    exact hs

/-- Settles O49: the block is still parked at the end of the run, and there a tick holds the counter and a `SETVEL`
writes `VEL`. -/
theorem disabledBlockIsSilent : Obligations.DisabledBlockIsSilent := by
  unfold Obligations.DisabledBlockIsSilent
  intro s t u is hoff hno hrun
  have hu : Parked u := execAll_keeps (allowed := (· ≠ .enable)) (fun i s t => exec_keeps_parked) is t u
    (parked_of_disable hoff) (fun i hi => ne_of_mem_of_not_mem hi hno) hrun
  constructor
  · intro v hv
    rw [exec_tick, hu.tickOnce_eq, holdStopped_eq, Host.Outcome.next.injEq] at hv
    subst hv
    exact ⟨rfl, rfl, rfl⟩
  · intro opd v hv
    rw [hu.exec_setvel_eq, Host.Outcome.next.injEq] at hv
    subst hv
    exact ⟨rfl, rfl, rfl⟩

end Sys2Proof.Machine
end

section
/-! What every step does with the next presented command and with `REFUSED` (R111, R112, R114): a refusal changes
`REFUSED` alone, O8; each step takes one command, and the host's interface places a word so that it runs, O9; nothing
clears `REFUSED`, O10. -/

namespace Sys2Proof.Machine

/-! ## A refusal -/

theorem step_of_nil {s : State} (hs : s.pending = []) : step s = .next s := by
  simp only [step, hs]

/-- Settles O8: `refuse` after `accept` is the state the statement writes out. -/
theorem stepRefusesWithoutEffect : Obligations.StepRefusesWithoutEffect := by
  unfold Obligations.StepRefusesWithoutEffect
  exact ⟨fun s p rest r hs hd => step_of_decode_error hs hd, fun s hs => step_of_nil hs⟩

/-! ## One command a step -/

@[simp] theorem accept_pending (p : Presented) (rest : List Presented) (s : State) :
    (accept p rest s).pending = rest := rfl

/-- Every step completes, a refusal and the empty order included (R111). -/
theorem step_next (s : State) : ∃ t, step s = .next t ∧ t.pending = s.pending.tail := by
  obtain ⟨hs, e⟩ | ⟨p, rest, hs, ⟨r, -, e⟩ | ⟨i, -, e⟩⟩ := step_cases s
  · exact ⟨s, e, by simp [hs]⟩
  · exact ⟨_, e, by simp [hs]⟩
  · obtain ⟨t, ht⟩ := exec_next i (accept p rest s)
    obtain ⟨hpending, -⟩ := exec_sameInputs ht
    exact ⟨t, e.trans ht, by simp [hpending, hs]⟩

/-! ## The host's interface -/

/-- A row of the table stands for a command when its word is that command's encoding (R51, R53). -/
theorem decodeTableWord_eq_some_iff {nbits w : ℕ} {i : Instr} :
    decodeTableWord nbits w = some i ↔ BitVec.ofNat 40 (w % 2 ^ nbits) = encode i := by
  rw [← decodeEncodeAgree, decodeTableWord]
  cases decodeWord (BitVec.ofNat 40 (w % 2 ^ nbits)) <;> simp

@[simp] theorem rightfulAgent_encode (i : Instr) : rightfulAgent (encode i) = issuer i := by simp [rightfulAgent]

theorem opcode_bne_construct (i : Instr) : (opcode i != 0x01) = (i != .construct) := by
  rw [Bool.eq_iff_iff, bne_iff_ne, bne_iff_ne, ne_eq, opcode_eq_construct_iff]

theorem presentNext_encode (i : Instr) (s : State) :
    presentNext (encode i) s =
      { s with pending := ⟨issuer i, encode i, none⟩ :: s.pending, built := s.built || i != .construct } := by
  rw [presentNext, rightfulAgent_encode, opcOf_encode, opcode_bne_construct]

/-- Presented by its issuer, a command passes the check of the issuer, and `BUILT` is set where the last check of R54
asks for it. -/
theorem step_presentNext_encode (i : Instr) (s : State) :
    step (presentNext (encode i) s) = exec i { s with built := s.built || i != .construct } := by
  have hdecode : decode (encode i) (issuer i) (s.built || i != .construct) = .ok i := by
    rw [decode_encode, if_neg (by simp), if_neg (by simp +contextual)]
  rw [presentNext_encode]
  exact (step_of_decode_ok (p := ⟨issuer i, encode i, none⟩) rfl hdecode).trans rfl

/-- Settles O9: no step is without a next state, and a word that decodes is an encoding. -/
theorem everyStepTakesOneCommand : Obligations.EveryStepTakesOneCommand := by
  unfold Obligations.EveryStepTakesOneCommand
  refine ⟨step_next, fun s w i hw => ?_⟩
  rw [State.withFetchWord, decodeTableWord_eq_some_iff.mp hw]
  exact step_presentNext_encode i s

/-! ## `REFUSED` is sticky -/

/-- `CONSTRUCT`, `SETVEL` and `TICK` keep `REFUSED` or set it; no other command writes it (R18, R42). -/
theorem exec_keeps_refused {i : Instr} {s t : State} (hs : s.refused = true) (h : exec i s = .next t) :
    t.refused = true := by
  obtain ⟨-, -, -, -, -, -, -, -, -, hframe, -, -⟩ := writersOfEachRegister i s t h
  cases i
  case construct => obtain ⟨-, rfl⟩ | ⟨-, rfl⟩ := construct_cases h <;> simp [hs]
  case setvel => obtain ⟨-, rfl⟩ | ⟨-, rfl⟩ := setvel_cases h <;> simp [hs]
  case tick =>
    rw [exec_tick, Host.Outcome.next.injEq] at h
    subst h
    obtain ⟨-, e⟩ | ⟨-, e⟩ | ⟨up, -, e⟩ := tickOnce_cases s <;> simp [e, hs]
  all_goals exact (hframe (by simp) (by simp)).1.trans hs

/-- Settles O10: taking a command up leaves `REFUSED`, a refusal sets it, and every command keeps it. -/
theorem refusedStaysSet : Obligations.RefusedStaysSet := by
  unfold Obligations.RefusedStaysSet
  intro s t h hs
  obtain ⟨-, e⟩ | ⟨p, rest, -, ⟨r, -, e⟩ | ⟨i, -, e⟩⟩ := step_cases s <;> rw [e] at h
  · cases h
    exact hs
  · cases h
    exact refuse_refused r _
  · exact exec_keeps_refused (s := accept p rest s) hs h

end Sys2Proof.Machine
end

section
/-! `CONSTRUCT` with a well-formed record (R124): the whole next state, O18, and no step from there before both an
`ENABLE` and a `SETVEL` that reaches the threshold (R125), O51. -/

namespace Sys2Proof.Machine

/-- The limits of the two strategies (R60) as one formula. -/
theorem maxVOf_eq (c : Config) :
    maxVOf c = c.tickRateHz * c.u / ((if c.strategy = .a then 2 else (c.kB : ℚ)) * c.spd) := by
  cases h : c.strategy <;> simp [maxVOf, maxVA, maxVB, Config.kA, h]

theorem maxCodeOf_eq (maxV : ℚ) : maxCodeOf maxV = min ⌊maxV * 65536⌋ 2147483647 := by
  norm_num [maxCodeOf, Config.fv]

theorem exec_construct_of_legalRanges {s : State} (h : LegalRanges s.cfgIn) :
    exec .construct s = .next (constructed s.cfgIn s) := by
  rw [exec_construct, if_pos ((legalRanges_iff_legalConfig _).mp h)]

/-- Settles O18: the constructed block with the two limits written out. -/
theorem constructResult : Obligations.ConstructResult := by
  unfold Obligations.ConstructResult
  refine ⟨rfl, rfl, fun s hlegal => ?_⟩
  dsimp only
  rw [exec_construct_of_legalRanges hlegal, constructed_eq, maxCodeOf_eq, maxVOf_eq]

/-- A parked block fires no step before the next `ENABLE`, and is parked still. -/
theorem Parked.execAll_of_no_enable {is : List Instr} {s t : State} (hs : Parked s) (hno : .enable ∉ is)
    (h : execAll is s = .next t) : Parked t ∧ risingEdges t.outlog = risingEdges s.outlog := by
  refine execAll_keeps (P := fun u => Parked u ∧ risingEdges u.outlog = risingEdges s.outlog) (allowed := (· ≠ .enable))
    ?_ is s t ⟨hs, rfl⟩ (fun i hi => ne_of_mem_of_not_mem hi hno) h
  rintro i u v hi ⟨hu, hlog⟩ huv
  have ⟨_, _, hd, _⟩ := hu
  exact ⟨exec_keeps_parked hi hu huv, (exec_risingEdges_of_stopped hd huv).trans hlog⟩

/-- Settles O51: without `ENABLE` the constructed block stays parked; without a `SETVEL` that reaches the threshold it
stays Stopped. -/
theorem noStepBeforeEnableAndVelocity : Obligations.NoStepBeforeEnableAndVelocity := by
  unfold Obligations.NoStepBeforeEnableAndVelocity
  intro s t u is hlegal hct hwait hrun
  rw [← risingEdges_of_ne_tick (by simp) hct]
  rw [exec_construct_of_legalRanges hlegal, Host.Outcome.next.injEq] at hct
  subst hct
  rcases hwait with hno | hlow
  · obtain ⟨⟨-, -, hd, -⟩, hlog⟩ := (parked_constructed s.cfgIn s).execAll_of_no_enable hno hrun
    exact ⟨hd, hlog⟩
  · exact execAll_stopped_of_staysBelowThreshold (constructed_dir _ s) hlow hrun

end Sys2Proof.Machine
end

section
/-! The spacing of step edges (R133, R96, R89): `K_B` ticks under strategy B, O46; two ticks from a pulse that stays
high and across `DISABLE`, O55; and at most one step per two ticks over a run whose pulses end on ticks, O57. -/

namespace Sys2Proof.Machine

/-! ## `K_B` ticks under strategy B -/

theorem tickOnce_tcnt_le (s : State) : (tickOnce s).tcnt ≤ s.tcnt + 1 := by
  obtain ⟨-, e⟩ | ⟨-, e⟩ | ⟨up, -, e⟩ := tickOnce_cases s
  · rw [e, holdStopped_eq]
    dsimp only
    split <;> simp
  · simp [e]
  · rw [e]
    cases hc : s.cfg.strategy
    · rw [advance_phase _ _ (by simpa using hc)]
      simp
    · rw [advance_count _ _ (by simpa using hc)]
      obtain ⟨-, -, h⟩ | ⟨-, h⟩ := advanceCount_cases s.pulse up (lowerPulse s)
      · simp [h]
      · simp [h, nextCount]

/-- Only a tick counts: every other command keeps `TCNT` or clears it (R28). -/
theorem exec_tcnt_le_of_ne_tick {i : Instr} {s t : State} (hi : i ≠ .tick) (h : exec i s = .next t) :
    t.tcnt ≤ s.tcnt := by
  obtain ⟨-, -, -, -, hkeep, -⟩ := writersOfEachRegister i s t h
  cases i
  case construct =>
    obtain ⟨-, rfl⟩ | ⟨-, rfl⟩ := construct_cases h
    · rw [constructed_eq]
      dsimp only
      split <;> simp
    · simp
  case setpos | setposd =>
    simp only [exec_setpos, exec_setposd, Host.Outcome.next.injEq] at h
    subst h
    rw [overwritePosition_eq]
    dsimp only
    split <;> simp
  all_goals
    obtain ⟨-, htcnt, -⟩ := hkeep rfl hi
    exact htcnt.le

/-- The target of a running block is at least the minimum interval (R24, R70, R85). -/
theorem Runs.kB_le_target {up : Bool} {s : State} (h : Runs .b up s) : s.cfg.kB ≤ target s := by
  obtain ⟨⟨-, -, -, hint, -⟩, hb, hd⟩ := h
  obtain ⟨-, hrun, -⟩ := hint hb
  obtain ⟨hmin, -⟩ := hrun (by rw [hd]; cases up <;> simp)
  unfold target
  omega

theorem tickOnce_risingEdges_of_lt_kB {s : State} (hs : Inv s) (hbuilt : s.built = true) (hb : s.cfg.strategy = .b)
    (hlt : s.tcnt + 1 < s.cfg.kB) : risingEdges (tickOnce s).outlog = risingEdges s.outlog := by
  by_cases hd : s.dir = .stopped
  · exact exec_risingEdges_of_stopped hd (exec_tick s)
  · obtain ⟨up, hrun⟩ := runs_of_inv hs hbuilt hb hd
    rw [hrun.tickOnce_counts (hlt.trans_le hrun.kB_le_target)]
    exact lowerPulse_risingEdges s

/-- O46 from any count: the ticks counted and the ticks to come stay below `K_B`, and so below every target. -/
theorem execAll_risingEdges_of_lt_kB {is : List Instr} {s t : State} (hs : Inv s) (hbuilt : s.built = true)
    (hb : s.cfg.strategy = .b) (hno : .construct ∉ is) (hfew : s.tcnt + is.count .tick < s.cfg.kB)
    (h : execAll is s = .next t) : risingEdges t.outlog = risingEdges s.outlog := by
  induction is generalizing s with
  | nil =>
    rw [execAll, Host.Outcome.next.injEq] at h
    rw [h]
  | cons i later ih =>
    obtain ⟨hi, hlater⟩ : i ≠ .construct ∧ .construct ∉ later := by
      rw [List.mem_cons, not_or] at hno
      exact ⟨Ne.symm hno.1, hno.2⟩
    obtain ⟨u, hu⟩ := exec_next i s
    simp only [execAll, hu] at h
    obtain ⟨-, hbind, -⟩ := writersOfEachRegister i s u hu
    obtain ⟨hcfg, -, -, hbuilt'⟩ := hbind hi
    obtain ⟨hcount, hlog⟩ : u.tcnt + later.count .tick ≤ s.tcnt + (i :: later).count .tick ∧
        risingEdges u.outlog = risingEdges s.outlog := by
      by_cases htick : i = .tick
      · subst htick
        rw [exec_tick, Host.Outcome.next.injEq] at hu
        subst hu
        have hle := tickOnce_tcnt_le s
        rw [List.count_cons_self] at hfew ⊢
        exact ⟨by omega, tickOnce_risingEdges_of_lt_kB hs hbuilt hb (by omega)⟩
      · have hle := exec_tcnt_le_of_ne_tick htick hu
        rw [List.count_cons_of_ne htick]
        exact ⟨by omega, risingEdges_of_ne_tick htick hu⟩
    rw [← hlog]
    exact ih (exec_keeps_inv hs hu) (hbuilt'.trans hbuilt) (by rw [hcfg, hb]) hlater (by rw [hcfg]; omega) h

/-- Settles O46: with `TCNT = 0` the ticks to come are all there are to count. -/
theorem edgesAtLeastMinimumApart : Obligations.EdgesAtLeastMinimumApart := by
  unfold Obligations.EdgesAtLeastMinimumApart
  intro s t is hs hbuilt hb hzero hno hfew h
  exact execAll_risingEdges_of_lt_kB hs hbuilt hb hno (by omega) h

/-! ## Two ticks -/

/-- A tick that starts high cannot fire (R87). -/
theorem tickOnce_risingEdges_of_high {s : State} (hp : s.pulse = true) :
    risingEdges (tickOnce s).outlog = risingEdges s.outlog := by
  obtain ⟨hlog, -⟩ | ⟨hlow, -⟩ := tickOnce_still_or_fires s
  · exact hlog
  · simp [hp] at hlow

/-- A tick that leaves the position fires no step (R88). -/
theorem tickOnce_risingEdges_of_pos_eq {s : State} (hpos : (tickOnce s).pos = s.pos) :
    risingEdges (tickOnce s).outlog = risingEdges s.outlog := by
  obtain ⟨hlog, -⟩ | ⟨-, hrun, -, -, hstep⟩ := tickOnce_still_or_fires s
  · exact hlog
  · exact absurd (hstep.symm.trans hpos) (ofInt_step_ne hrun s.pos)

/-- Only `TICK`, `DISABLE` and `CONSTRUCT` touch the pulse, and only a tick fires: the others keep both. -/
theorem exec_keeps_pulse {i : Instr} {s t : State} (hi : i ∉ [.tick, .disable, .construct]) (h : exec i s = .next t) :
    t.pulse = s.pulse ∧ risingEdges t.outlog = risingEdges s.outlog := by
  obtain ⟨-, -, -, -, -, hkeep, -⟩ := writersOfEachRegister i s t h
  exact ⟨hkeep hi, risingEdges_of_ne_tick (by rintro rfl; simp at hi) h⟩

theorem execAll_keeps_pulse {is : List Instr} {s t : State} (hall : ∀ i ∈ is, i ∉ [.tick, .disable, .construct])
    (h : execAll is s = .next t) : t.pulse = s.pulse ∧ risingEdges t.outlog = risingEdges s.outlog := by
  refine execAll_keeps (P := fun u => u.pulse = s.pulse ∧ risingEdges u.outlog = risingEdges s.outlog)
    (allowed := (· ∉ [.tick, .disable, .construct])) ?_ is s t ⟨rfl, rfl⟩ hall h
  rintro i u v hi ⟨hp, hlog⟩ huv
  obtain ⟨hp', hlog'⟩ := exec_keeps_pulse hi huv
  exact ⟨hp'.trans hp, hlog'.trans hlog⟩

theorem execAll_risingEdges_of_ne_tick {is : List Instr} {s t : State} (hall : ∀ i ∈ is, i ≠ .tick)
    (h : execAll is s = .next t) : risingEdges t.outlog = risingEdges s.outlog :=
  execAll_keeps (P := fun u => risingEdges u.outlog = risingEdges s.outlog)
    (fun _ _ _ hi hlog huv => (risingEdges_of_ne_tick hi huv).trans hlog) is s t rfl hall h

/-- A tick that fires restarts the interval of strategy B (R85). -/
theorem tickOnce_tcnt_of_fires {s : State} (hb : s.cfg.strategy = .b) (hd : s.dir ≠ .reserved)
    (hhigh : (tickOnce s).pulse = true) : (tickOnce s).tcnt = 0 := by
  obtain ⟨-, e⟩ | ⟨h, -⟩ | ⟨up, -, e⟩ := tickOnce_cases s
  · simp [e] at hhigh
  · exact absurd h hd
  · rw [advance_count _ _ (by simpa using hb)] at e
    obtain ⟨-, -, e'⟩ | ⟨-, e'⟩ := advanceCount_cases s.pulse up (lowerPulse s)
    · rw [e, e']
      rfl
    · simp [e, e'] at hhigh

section
variable {s t u v : State} {between : List Instr} (hs : Inv s) (hbuilt : s.built = true) (ht : exec .tick s = .next t)
  (hhigh : t.pulse = true) (hall : ∀ i ∈ between, i ≠ .tick ∧ overwritesPosition i = false)
  (hu : execAll between t = .next u) (hv : exec .tick u = .next v)
include hs hbuilt ht hhigh hall hu hv

/-- Under strategy B the tick after a step is too early for its interval, a `DISABLE` between them or not. -/
theorem interval_edges_two_ticks_apart (hb : s.cfg.strategy = .b) : risingEdges v.outlog = risingEdges t.outlog := by
  obtain ⟨⟨hlegal, -⟩, ⟨hd, -⟩, -⟩ := hs.2 hbuilt
  obtain ⟨-, -, -, hkB, -⟩ := (legalConfig_iff _).mp hlegal
  have hinv := exec_keeps_inv hs ht
  rw [exec_tick, Host.Outcome.next.injEq] at ht
  subst ht
  have hnone : between.count .tick = 0 := List.count_eq_zero.mpr fun hmem => (hall _ hmem).1 rfl
  have hno : .construct ∉ between ++ [.tick] := by
    simp only [List.mem_append, List.mem_singleton, reduceCtorEq, or_false]
    exact fun hmem => by simpa [overwritesPosition] using (hall _ hmem).2
  refine edgesAtLeastMinimumApart (tickOnce s) v (between ++ [.tick]) hinv (by simpa using hbuilt) (by simpa using hb)
    (tickOnce_tcnt_of_fires hb hd hhigh) hno ?_ ?_
  · rw [List.count_append, hnone, List.count_singleton_self, tickOnce_cfg]
    omega
  · rw [execAll_append _ _ _ _ hu, execAll, hv]
    rfl

/-- Under strategy A the step leaves room for one more increment in its direction, a `DISABLE` after it or not (R92). -/
theorem phase_edges_two_ticks_apart (ha : s.cfg.strategy = .a) (hdir : u.dir = s.dir) :
    risingEdges v.outlog = risingEdges t.outlog := by
  have hrun : s.dir ≠ .stopped := by
    intro hd
    rw [exec_tick, tickOnce_stopped hd, Host.Outcome.next.injEq] at ht
    simp [← ht] at hhigh
  obtain ⟨hpos, -⟩ := noDeferralWithoutReversal s t u v between hs hbuilt ha hrun ht hhigh hall hu hdir hv
  rw [exec_tick, Host.Outcome.next.injEq] at hv
  subst hv
  rw [tickOnce_risingEdges_of_pos_eq hpos]
  exact execAll_risingEdges_of_ne_tick (fun i hi => (hall i hi).1) hu

end

/-- Settles O55: a pulse that stays high keeps the next tick from firing; after a step the interval of strategy B has
just begun, and the accumulator of strategy A has just wrapped. -/
theorem edgesTwoTicksApart : Obligations.EdgesTwoTicksApart := by
  unfold Obligations.EdgesTwoTicksApart
  constructor
  · intro s t u between hp hall ht hu
    obtain ⟨hp', hlog⟩ := execAll_keeps_pulse hall ht
    rw [exec_tick, Host.Outcome.next.injEq] at hu
    subst hu
    rw [tickOnce_risingEdges_of_high (hp'.trans hp), hlog]
  · intro s t u v between hs hbuilt ht hhigh hall hu hdir hv
    cases hc : s.cfg.strategy
    · exact phase_edges_two_ticks_apart hs hbuilt ht hhigh hall hu hv hc (hdir hc)
    · exact interval_edges_two_ticks_apart hs hbuilt ht hhigh hall hu hv hc

/-! ## A run whose pulses end on ticks -/

/-- A tick pays for one half of a step: it raises the pulse with the edge, or lowers it without one. -/
theorem tickOnce_edges_le (s : State) :
    2 * risingEdges (tickOnce s).outlog + (if s.pulse then 1 else 0) ≤
      2 * risingEdges s.outlog + 1 + (if (tickOnce s).pulse then 1 else 0) := by
  obtain ⟨hlog, -⟩ | ⟨hlow, -, hhigh, hlog, -⟩ := tickOnce_still_or_fires s
  · rw [hlog]
    split <;> omega
  · simp only [hlow, hhigh, hlog, if_true, Bool.false_eq_true, if_false]
    omega

/-- A command other than a tick that does not cut a high pulse short fires nothing and keeps a high pulse. -/
theorem exec_edges_le_of_ne_tick {i : Instr} {s t : State} (htick : i ≠ .tick)
    (hends : s.pulse = true → i ∉ [.disable, .construct]) (h : exec i s = .next t) :
    2 * risingEdges t.outlog + (if s.pulse then 1 else 0) ≤
      2 * risingEdges s.outlog + (if t.pulse then 1 else 0) := by
  rw [risingEdges_of_ne_tick htick h]
  cases hp : s.pulse
  · simp
  · obtain ⟨hp', -⟩ := exec_keeps_pulse (List.not_mem_cons_of_ne_of_not_mem htick (hends hp)) h
    simp [hp', hp]

/-- Settles O57, by induction over the run. -/
theorem atMostOneStepPerTwoTicks : Obligations.AtMostOneStepPerTwoTicks := by
  unfold Obligations.AtMostOneStepPerTwoTicks
  intro s t is hends h
  induction is generalizing s with
  | nil =>
    rw [execAll, Host.Outcome.next.injEq] at h
    simp [h]
  | cons i later ih =>
    obtain ⟨hfirst, hlater⟩ := hends
    obtain ⟨u, hu⟩ := exec_next i s
    simp only [execAll, hu] at h
    have hrest := ih u (hlater u hu) h
    by_cases htick : i = .tick
    · subst htick
      have hstep := tickOnce_edges_le s
      rw [exec_tick, Host.Outcome.next.injEq] at hu
      rw [hu] at hstep
      rw [List.count_cons_self]
      omega
    · have hstep := exec_edges_le_of_ne_tick htick hfirst hu
      rw [List.count_cons_of_ne htick]
      omega

end Sys2Proof.Machine
end
